-- ==== Sys2Proof/Word.lean ====
section
/-! DEFINITION. The word types: a data byte, a bus address and a request word (spec/00_scope.md R22, R23;
spec/30_encoding.md R100). -/

namespace Sys2Proof

/-- A data value, 8 bits (R22, R23). -/
abbrev Byte := BitVec 8

/-- A bus address, 16 bits (R22, R71). -/
abbrev Addr := BitVec 16

/-- A request word, 26 bits (R100): bits 25:24 OP, bits 23:8 ADDR, bits 7:0 DATA. -/
abbrev ReqWord := BitVec 26

end Sys2Proof
end

