-- ==== Sys2Proof/Config.lean ====
section
/-! DEFINITION. The configuration of a block, fixed at construction (spec/00_scope.md R10 to R20), as plain
data, and the free values: the bytes that only a collaborator outside the block knows. -/

namespace Sys2Proof

/-- The four controller kinds in scope (R3, R10). -/
inductive Kind where
  | none | mbc1 | mbc2 | mbc3
  deriving DecidableEq, Repr

/-- Where the echo redirect re-enters (R18, R145). -/
inductive EchoReentry where
  | base   -- the base region table
  | full   -- the controller's dispatch
  deriving DecidableEq, Repr

/-- What an MBC3 read of 0xA000–0xBFFF returns in RTC mode (R19, R240). -/
inductive RtcReadPath where
  | cartRam | rtcFile
  deriving DecidableEq, Repr

/-- `RTC_INDEX_MAP` (R17): which RTC byte each of the five select values reaches. OPEN in the spec, so it is
a parameter, one entry per select value. -/
structure RtcIndexMap where
  r08 : Option (Fin 4)
  r09 : Option (Fin 4)
  r0A : Option (Fin 4)
  r0B : Option (Fin 4)
  r0C : Option (Fin 4)
  deriving DecidableEq, Repr

/-- `READ_ROM` (R15), the collaborator's answer for an offset, as a finite table. An offset listed in
`answers` is answered as listed (`none`: the collaborator has no byte there); an offset not listed is answered
with a free byte below `size` and with `none` from `size` up. Every function from the offsets the block can ask
(below 0x200000, R76) to `Option Byte` is such a table. DESIGN CHOICE (log entry 3), safe. -/
structure RomPort where
  answers : List (Nat × Option Byte)
  size    : Nat
  deriving DecidableEq, Repr

/-- The construction parameters but for the kind (R11 to R20). -/
structure Params where
  enhanced           : Bool          -- ENHANCED, R11
  ramBankCount       : Nat           -- RAM_BANK_COUNT, R12
  hasBattery         : Bool          -- HAS_BATTERY, R13
  cartRamSize        : Nat           -- CART_RAM_SIZE, R14
  rom                : RomPort       -- READ_ROM, R15
  rtcIndexMap        : RtcIndexMap   -- RTC_INDEX_MAP, R17
  echoReentry        : EchoReentry   -- ECHO_REENTRY, R18
  rtcReadPath        : RtcReadPath   -- RTC_READ_PATH, R19
  wramBankOffsetInit : Nat           -- WRAM_BANK_OFFSET_INIT, R20
  vramBankOffsetInit : Nat           -- VRAM_BANK_OFFSET_INIT, R20
  deriving DecidableEq, Repr

/-- The configuration: the parameters and the controller kind (R10). -/
structure Config extends Params where
  kind : Kind
  deriving DecidableEq, Repr

/-- Free value: the byte of the cartridge image at an offset that the image has and the table `RomPort.answers`
does not list. A read of one offset always gives one byte (R82), so it depends on the offset alone.
DESIGN CHOICE (log entry 3), safe. -/
opaque Config.romByte : Nat → Byte

/-- Free value: the byte the I/O sub-handler answers to the n-th I/O read, at an address (R150: a draw).
DESIGN CHOICE (log entry 6), safe. -/
opaque Config.ioByte : Nat → Addr → Byte

/-- The parameters of `State.reset` (log entry 1). `ECHO_REENTRY`, `RTC_READ_PATH` and the two bank offsets are
the spec's values (R18 to R20); `ENHANCED` and `HAS_BATTERY` are false and `CART_RAM_SIZE` is
`RAM_BANK_COUNT × 0x2000`, the defaults of the spec's vectors (spec/95_test_vectors.md, Conventions; R14).
DESIGN CHOICE: `RAM_BANK_COUNT = 3`, the image, and no RTC index; unsafe for a claim about that one state. -/
def Params.standard : Params where
  enhanced := false
  ramBankCount := 3
  hasBattery := false
  cartRamSize := 0x6000
  rom := ⟨[], 0x200000⟩
  rtcIndexMap := ⟨none, none, none, none, none⟩
  echoReentry := .base
  rtcReadPath := .cartRam
  wramBankOffsetInit := 0x1000
  vramBankOffsetInit := 0x0000

/-- The configuration of `State.reset`. DESIGN CHOICE: the kind MBC1 (log entry 1), unsafe for a claim about
that one state; a claim about every state holds for every kind. -/
def Config.standard : Config where
  toParams := Params.standard
  kind := .mbc1

end Sys2Proof
end

