-- ==== Sys2Proof/Syntax.lean ====
section
/-! DEFINITION. The operations (spec/00_scope.md R2; spec/30_encoding.md R108, R109): one constructor per row of
spec/opcode_table.json, with the bus address and, for a write, the data byte. -/

namespace Sys2Proof

/-- The 33 operations of spec/opcode_table.json, in the table's order. -/
inductive Instr where
  | rdRom0 (addr : Addr)
  | rdRomx (addr : Addr)
  | rdVram (addr : Addr)
  | rdXramNone (addr : Addr)
  | rdXram (addr : Addr)
  | rdWram0 (addr : Addr)
  | rdWramx (addr : Addr)
  | rdEcho (addr : Addr)
  | rdOam (addr : Addr)
  | rdUnusable (addr : Addr)
  | rdIo (addr : Addr)
  | wrRomNop (addr : Addr) (data : Byte)
  | wrVram (addr : Addr) (data : Byte)
  | wrXramNop (addr : Addr) (data : Byte)
  | wrWram0 (addr : Addr) (data : Byte)
  | wrWramx (addr : Addr) (data : Byte)
  | wrEcho (addr : Addr) (data : Byte)
  | wrOam (addr : Addr) (data : Byte)
  | wrUnusable (addr : Addr) (data : Byte)
  | wrIo (addr : Addr) (data : Byte)
  | wrMbc1Ramen (addr : Addr) (data : Byte)
  | wrMbc1Romlo (addr : Addr) (data : Byte)
  | wrMbc1Bankhi (addr : Addr) (data : Byte)
  | wrMbc1Mode (addr : Addr) (data : Byte)
  | wrMbc1Xram (addr : Addr) (data : Byte)
  | wrMbc3Enable (addr : Addr) (data : Byte)
  | wrMbc3Romb (addr : Addr) (data : Byte)
  | wrMbc3RambRtc (addr : Addr) (data : Byte)
  | wrMbc3Xram (addr : Addr) (data : Byte)
  | saveBase
  | saveMbc
  | loadBase
  | loadMbc
  deriving DecidableEq, Repr

end Sys2Proof
end

