-- ==== Sys2Proof/WellFormed.lean ====
section
/-! DEFINITION. Which operations a block of a given kind has (spec/opcode_table.json: `addr_lo`, `addr_hi`,
`kinds` and `ranges_by_kind` of each row; spec/30_encoding.md R108, R109). -/

namespace Sys2Proof

/-- `lo ≤ a ≤ hi`. -/
def Addr.within (a : Addr) (lo hi : Nat) : Bool := decide (lo ≤ a.toNat) && decide (a.toNat ≤ hi)

/-- The range of WR_ROM_NOP by kind (the row's `ranges_by_kind`). -/
def wrRomNopRange (k : Kind) (a : Addr) : Bool :=
  match k with
  | .none => a.within 0x0000 0x7FFF
  | .mbc1 => false
  | .mbc2 => a.within 0x0000 0x7FFF
  | .mbc3 => a.within 0x6000 0x7FFF

/-- The operation is one a block of kind `k` has: the kind is among its row's kinds and the address in its
row's range. -/
def Instr.wf (k : Kind) : Instr → Bool
  | .rdRom0 a => a.within 0x0000 0x3FFF
  | .rdRomx a => a.within 0x4000 0x7FFF
  | .rdVram a => a.within 0x8000 0x9FFF
  | .rdXramNone a => decide (k = .none) && a.within 0xA000 0xBFFF
  | .rdXram a => decide (k ≠ .none) && a.within 0xA000 0xBFFF
  | .rdWram0 a => a.within 0xC000 0xCFFF
  | .rdWramx a => a.within 0xD000 0xDFFF
  | .rdEcho a => a.within 0xE000 0xFDFF
  | .rdOam a => a.within 0xFE00 0xFE9F
  | .rdUnusable a => a.within 0xFEA0 0xFEFF
  | .rdIo a => a.within 0xFF00 0xFFFF
  | .wrRomNop a _ => wrRomNopRange k a
  | .wrVram a _ => a.within 0x8000 0x9FFF
  | .wrXramNop a _ => (decide (k = .none) || decide (k = .mbc2)) && a.within 0xA000 0xBFFF
  | .wrWram0 a _ => a.within 0xC000 0xCFFF
  | .wrWramx a _ => a.within 0xD000 0xDFFF
  | .wrEcho a _ => a.within 0xE000 0xFDFF
  | .wrOam a _ => a.within 0xFE00 0xFE9F
  | .wrUnusable a _ => a.within 0xFEA0 0xFEFF
  | .wrIo a _ => a.within 0xFF00 0xFFFF
  | .wrMbc1Ramen a _ => decide (k = .mbc1) && a.within 0x0000 0x1FFF
  | .wrMbc1Romlo a _ => decide (k = .mbc1) && a.within 0x2000 0x3FFF
  | .wrMbc1Bankhi a _ => decide (k = .mbc1) && a.within 0x4000 0x5FFF
  | .wrMbc1Mode a _ => decide (k = .mbc1) && a.within 0x6000 0x7FFF
  | .wrMbc1Xram a _ => decide (k = .mbc1) && a.within 0xA000 0xBFFF
  | .wrMbc3Enable a _ => decide (k = .mbc3) && a.within 0x0000 0x1FFF
  | .wrMbc3Romb a _ => decide (k = .mbc3) && a.within 0x2000 0x3FFF
  | .wrMbc3RambRtc a _ => decide (k = .mbc3) && a.within 0x4000 0x5FFF
  | .wrMbc3Xram a _ => decide (k = .mbc3) && a.within 0xA000 0xBFFF
  | .saveBase => decide (k = .none)
  | .saveMbc => decide (k ≠ .none)
  | .loadBase => decide (k = .none)
  | .loadMbc => decide (k ≠ .none)

end Sys2Proof
end

