-- ==== Sys2Proof/Decode.lean ====
section
/-! DEFINITION. Decoding a request word under a controller kind (spec/30_encoding.md R100 to R114), the encoder,
and the assembler's words (R115, R116). -/

namespace Sys2Proof

/-- The reason a request word spells no operation (R104, R114). -/
inductive DecodeError where
  | reservedField
  deriving DecidableEq, Repr

/-- OP, bits 25:24 (R100, R101). -/
def opField (w : ReqWord) : BitVec 2 := w.extractLsb' 24 2

/-- ADDR, bits 23:8 (R102). -/
def addrField (w : ReqWord) : Addr := w.extractLsb' 8 16

/-- DATA, bits 7:0 (R103). -/
def dataField (w : ReqWord) : Byte := w.extractLsb' 0 8

/-- The request word `{OP, ADDR, DATA}` (R100). -/
def requestWord (op : BitVec 2) (a : Addr) (d : Byte) : ReqWord := op ++ a ++ d

/-- The read rows (R108). -/
def decodeRead (k : Kind) (a : Addr) : Instr :=
  if a.toNat ≤ 0x3FFF then .rdRom0 a
  else if a.toNat ≤ 0x7FFF then .rdRomx a
  else if a.toNat ≤ 0x9FFF then .rdVram a
  else if a.toNat ≤ 0xBFFF then
    match k with
    | .none => .rdXramNone a
    | .mbc1 => .rdXram a
    | .mbc2 => .rdXram a
    | .mbc3 => .rdXram a
  else if a.toNat ≤ 0xCFFF then .rdWram0 a
  else if a.toNat ≤ 0xDFFF then .rdWramx a
  else if a.toNat ≤ 0xFDFF then .rdEcho a
  else if a.toNat ≤ 0xFE9F then .rdOam a
  else if a.toNat ≤ 0xFEFF then .rdUnusable a
  else .rdIo a

/-- The write rows (R109). -/
def decodeWrite (k : Kind) (a : Addr) (d : Byte) : Instr :=
  if a.toNat ≤ 0x1FFF then
    match k with
    | .none => .wrRomNop a d
    | .mbc1 => .wrMbc1Ramen a d
    | .mbc2 => .wrRomNop a d
    | .mbc3 => .wrMbc3Enable a d
  else if a.toNat ≤ 0x3FFF then
    match k with
    | .none => .wrRomNop a d
    | .mbc1 => .wrMbc1Romlo a d
    | .mbc2 => .wrRomNop a d
    | .mbc3 => .wrMbc3Romb a d
  else if a.toNat ≤ 0x5FFF then
    match k with
    | .none => .wrRomNop a d
    | .mbc1 => .wrMbc1Bankhi a d
    | .mbc2 => .wrRomNop a d
    | .mbc3 => .wrMbc3RambRtc a d
  else if a.toNat ≤ 0x7FFF then
    match k with
    | .none => .wrRomNop a d
    | .mbc1 => .wrMbc1Mode a d
    | .mbc2 => .wrRomNop a d
    | .mbc3 => .wrRomNop a d
  else if a.toNat ≤ 0x9FFF then .wrVram a d
  else if a.toNat ≤ 0xBFFF then
    match k with
    | .none => .wrXramNop a d
    | .mbc1 => .wrMbc1Xram a d
    | .mbc2 => .wrXramNop a d
    | .mbc3 => .wrMbc3Xram a d
  else if a.toNat ≤ 0xCFFF then .wrWram0 a d
  else if a.toNat ≤ 0xDFFF then .wrWramx a d
  else if a.toNat ≤ 0xFDFF then .wrEcho a d
  else if a.toNat ≤ 0xFE9F then .wrOam a d
  else if a.toNat ≤ 0xFEFF then .wrUnusable a d
  else .wrIo a d

/-- Decode (R107): the reserved-zero fields first (R104, R290), then the row for the kind and the address. -/
def decode (k : Kind) (w : ReqWord) : Except DecodeError Instr :=
  if opField w = 0b00#2 then
    if dataField w = 0#8 then .ok (decodeRead k (addrField w)) else .error .reservedField
  else if opField w = 0b01#2 then
    .ok (decodeWrite k (addrField w) (dataField w))
  else if addrField w = 0#16 ∧ dataField w = 0#8 then
    if opField w = 0b10#2 then
      .ok (match k with | .none => .saveBase | .mbc1 => .saveMbc | .mbc2 => .saveMbc | .mbc3 => .saveMbc)
    else
      .ok (match k with | .none => .loadBase | .mbc1 => .loadMbc | .mbc2 => .loadMbc | .mbc3 => .loadMbc)
  else .error .reservedField

/-- The word of an operation: READ is OP 00 with DATA zero, WRITE OP 01, SAVE OP 10 and LOAD OP 11 with ADDR
and DATA zero (R101, R104). -/
def encode : Instr → ReqWord
  | .rdRom0 a => requestWord 0b00 a 0
  | .rdRomx a => requestWord 0b00 a 0
  | .rdVram a => requestWord 0b00 a 0
  | .rdXramNone a => requestWord 0b00 a 0
  | .rdXram a => requestWord 0b00 a 0
  | .rdWram0 a => requestWord 0b00 a 0
  | .rdWramx a => requestWord 0b00 a 0
  | .rdEcho a => requestWord 0b00 a 0
  | .rdOam a => requestWord 0b00 a 0
  | .rdUnusable a => requestWord 0b00 a 0
  | .rdIo a => requestWord 0b00 a 0
  | .wrRomNop a d => requestWord 0b01 a d
  | .wrVram a d => requestWord 0b01 a d
  | .wrXramNop a d => requestWord 0b01 a d
  | .wrWram0 a d => requestWord 0b01 a d
  | .wrWramx a d => requestWord 0b01 a d
  | .wrEcho a d => requestWord 0b01 a d
  | .wrOam a d => requestWord 0b01 a d
  | .wrUnusable a d => requestWord 0b01 a d
  | .wrIo a d => requestWord 0b01 a d
  | .wrMbc1Ramen a d => requestWord 0b01 a d
  | .wrMbc1Romlo a d => requestWord 0b01 a d
  | .wrMbc1Bankhi a d => requestWord 0b01 a d
  | .wrMbc1Mode a d => requestWord 0b01 a d
  | .wrMbc1Xram a d => requestWord 0b01 a d
  | .wrMbc3Enable a d => requestWord 0b01 a d
  | .wrMbc3Romb a d => requestWord 0b01 a d
  | .wrMbc3RambRtc a d => requestWord 0b01 a d
  | .wrMbc3Xram a d => requestWord 0b01 a d
  | .saveBase => requestWord 0b10 0 0
  | .saveMbc => requestWord 0b10 0 0
  | .loadBase => requestWord 0b11 0 0
  | .loadMbc => requestWord 0b11 0 0

/-- The assembler's `RD a` (R115). -/
def asmRd (a : Addr) : ReqWord := requestWord 0b00 a 0

/-- The assembler's `WR a, d` (R115). -/
def asmWr (a : Addr) (d : Byte) : ReqWord := requestWord 0b01 a d

/-- The assembler's `SAVE` (R115). -/
def asmSave : ReqWord := requestWord 0b10 0 0

/-- The assembler's `LOAD` (R115). -/
def asmLoad : ReqWord := requestWord 0b11 0 0

/-- The pseudo-request `RAMON` (R116). -/
def asmRamOn : ReqWord := asmWr 0x0000 0x0A

/-- The pseudo-request `RAMOFF` (R116). -/
def asmRamOff : ReqWord := asmWr 0x0000 0x00

/-- The pseudo-request `ROMSEL n` (R116). -/
def asmRomSel (n : Byte) : ReqWord := asmWr 0x2000 n

/-- The pseudo-request `BANKSEL n` (R116). -/
def asmBankSel (n : Byte) : ReqWord := asmWr 0x4000 n

/-- The pseudo-request `MODESEL m` (R116). -/
def asmModeSel (m : Byte) : ReqWord := asmWr 0x6000 m

/-- The request word held in the low `nbits` bits of `w`. -/
def tableWord (nbits w : Nat) : ReqWord := BitVec.ofNat 26 (w % 2 ^ nbits)

/-- The operation the decoder reads from a table word under the kind of `State.reset` (log entry 7); a word
with a bit above bit 25 is no request word (R100). -/
def decodeTableWord (nbits w : Nat) : Option Instr :=
  if w % 2 ^ nbits < 2 ^ 26 then
    match decode Config.standard.kind (tableWord nbits w) with
    | .ok i => some i
    | .error .reservedField => none
  else none

end Sys2Proof
end

