-- ==== Sys2Proof/Machine/State.lean ====
section
/-! DEFINITION. The block's state (spec/10_state.md R33 to R51), its reasons to stop (spec/60_exceptions.md R284,
R289), and the state after construction (spec/70_reset_and_hazards.md R311). -/

namespace Sys2Proof.Machine

/-- A byte buffer: the (index, byte) pairs that differ from the unlisted byte, by rising index (`Memory.wf`). -/
abbrev Memory := List Host.Cell

/-- The byte buffers (R33 to R36). -/
inductive Buf where
  | vram | wram | oam | cartRam
  deriving DecidableEq, Repr

/-- The four diagnostics (R280), in the order of their codes 1 to 4. -/
inductive ErrorKind where
  | unsupported | noPersistence | dataIntegrity | prematureEnd
  deriving DecidableEq, Repr

/-- The model faults (R284); each stops the block (R285). -/
inductive Fault where
  /-- BOUNDS (R286): raised by any buffer access whose index is at or beyond the buffer's length. Safe: the
  model stops where the real block might go on. -/
  | bounds (buf : Buf) (index : Nat)
  /-- ROM_UNMAPPED (R287): raised by RD_ROM0, RD_ROMX and RD_ECHO when the collaborator has no byte at the
  offset. Safe. -/
  | romUnmapped (offset : Nat)
  /-- RTC_UNRESOLVED (R288): raised by WR_MBC3_XRAM in RTC mode, and by RD_XRAM in RTC mode under
  `RTC_READ_PATH = RTC_FILE`, when `RTC_INDEX_MAP` gives no index for the selected value. Safe. -/
  | rtcUnresolved (select : Option Byte)
  deriving DecidableEq, Repr

/-- What the model gives no meaning (R289). -/
inductive Refusal where
  /-- Raised by an arm of `exec` whose instruction has no meaning yet; no arm does. Safe. -/
  | notModelled (mnemonic : String)
  /-- RESERVED_FIELD (R104, R289): raised by a step whose request word has a non-zero reserved field. Safe. -/
  | reservedField
  /-- UNSUPPORTED_KIND (R113, R289): raised by a construction with another controller kind,
also where it breaks a constraint of R317 as well (DESIGN CHOICE, log entry 14). Safe: no block comes of it. -/
  | unsupportedKind (name : String)
  /-- BAD_CONFIG (R317, R289): raised by a construction of one of the four kinds that breaks a constraint (for
another kind see log entry 14). Safe: no block comes of it. -/
  | badConfig
  /-- Raised by every step after a refusal: the block takes no further request (R289). Safe. -/
  | stopped
  deriving DecidableEq, Repr

/-- LOAD's byte source (R265). -/
structure LoadSource where
  valid : Bool
  bytes : List Byte
  deriving DecidableEq, Repr

/-- One request: its word (R100) and its side streams (R106), LOAD's source and the bytes that SAVE's sink
already holds. -/
structure Request where
  word   : ReqWord
  source : LoadSource
  sink   : List Byte
  deriving DecidableEq, Repr

/-- One write recorded on the I/O port (R151). -/
structure IoEvent where
  addr : Addr
  data : Byte
  deriving DecidableEq, Repr

/-- The MBC3 RTC register file, bytes 0 to 3 (R46). -/
structure RtcFile where
  b0 : Byte
  b1 : Byte
  b2 : Byte
  b3 : Byte
  deriving DecidableEq, Repr

/-- The block. A field that a kind does not have (R51) stands at its construction value and no operation of that
kind reads or writes it (log entry 9). -/
structure State where
  /-- The configuration (R10 to R20); no step changes it. -/
  cfg            : Config
  /-- Video RAM (R33). -/
  vram           : Memory
  /-- Working RAM (R34). -/
  wram           : Memory
  /-- Sprite-attribute memory (R35). -/
  oam            : Memory
  /-- Cartridge RAM (R36). -/
  cartRam        : Memory
  /-- Offset of the working-RAM bank at 0xD000 (R37). -/
  wramBankOffset : Nat
  /-- Offset of the video-RAM bank at 0x8000 (R38). -/
  vramBankOffset : Nat
  /-- Offset of the ROM bank at 0x4000 (R39). -/
  romBankOffset  : Nat
  /-- Offset of the cartridge-RAM bank at 0xA000 (R40). -/
  ramBankOffset  : Nat
  /-- The cartridge-RAM gate (R41). -/
  ramEnabled     : Bool
  /-- The unaliased MBC1 bank selector (R42). -/
  romBank        : BitVec 7
  /-- MBC1 mode: false RAM-banking, true ROM-banking (R43). -/
  modeSelect     : Bool
  /-- Whether an RTC select is accepted (R45). -/
  rtcEnabled     : Bool
  /-- The RTC register file (R46). -/
  rtc            : RtcFile
  /-- −1 in RTC mode, else the selected RAM bank (R47). -/
  ramBankIndex   : Int
  /-- The last accepted RTC select value (R48). -/
  rtcSelect      : Option Byte
  /-- The diagnostics reported, in order (R49). -/
  errors         : List ErrorKind
  /-- The mark of a model fault (R50, R285). -/
  fault          : Option Fault
  /-- The mark of a refusal (R50, R289). -/
  refused        : Bool
  /-- The writes recorded on the I/O port, in order (R151). -/
  ioEvents       : List IoEvent
  /-- The model's own: how many I/O reads have been answered; picks the next free byte (R150). -/
  ioDraws        : Nat
  /-- The requests not yet taken, oldest first (R83). -/
  requests       : List Request
  /-- LOAD's source of the request in the block (R265). -/
  source         : LoadSource
  /-- SAVE's sink of the request in the block (R266). -/
  sink           : List Byte
  /-- The byte returned to the requester by the request in the block (R105). -/
  response       : Option Byte
  deriving DecidableEq, Repr

/-- The block right after construction with `Config.standard` (R311). Buffers and RTC bytes are zero: DESIGN
CHOICE (log entry 2), unsafe for a claim about this one state; `construct` takes any contents. -/
def State.reset : State where
  cfg := Config.standard
  vram := []
  wram := []
  oam := []
  cartRam := []
  wramBankOffset := 0x1000
  vramBankOffset := 0x0000
  romBankOffset := 0x4000
  ramBankOffset := 0x0000
  ramEnabled := false
  romBank := 0x01
  modeSelect := false
  rtcEnabled := false
  rtc := ⟨0, 0, 0, 0⟩
  ramBankIndex := 0
  rtcSelect := none
  errors := []
  fault := none
  refused := false
  ioEvents := []
  ioDraws := 0
  requests := []
  source := ⟨false, []⟩
  sink := []
  response := none

end Sys2Proof.Machine
end

