-- ==== Sys2Proof/Machine/Ops.lean ====
section
/-! DEFINITION. The named operations: a buffer's bytes, the bounds check, the ROM and I/O ports, the response,
the diagnostics, taking a request and recording a stop (spec/00_scope.md R24, R25; spec/60_exceptions.md R281,
R285 to R289). -/

namespace Sys2Proof.Machine

/-- What a request ends in. -/
abbrev Result := Host.Outcome State Fault Refusal

/-! ## A buffer's bytes -/

/-- What an index that is not listed reads as. DESIGN CHOICE (log entry 2): any launch contents are written as
a list, so the choice is felt only where a buffer is left unlisted; unsafe there. -/
def Memory.unlisted : Byte := 0x00

/-- The byte at an index. -/
def Memory.read : Memory → Nat → Byte
  | [], _ => Memory.unlisted
  | (k, b) :: rest, i => if k = i then b else Memory.read rest i

/-- Lists a byte before the first greater index. -/
def Memory.place : Memory → Nat → Byte → Memory
  | [], i, v => [(i, v)]
  | (k, b) :: rest, i, v => if i < k then (i, v) :: (k, b) :: rest else (k, b) :: Memory.place rest i v

/-- The buffer with a byte written; writing the unlisted byte removes the entry. -/
def Memory.write (m : Memory) (i : Nat) (v : Byte) : Memory :=
  if v = Memory.unlisted then m.filter (fun c => c.1 != i)
  else Memory.place (m.filter (fun c => c.1 != i)) i v

/-- The buffer that holds a list of bytes from an index on and the unlisted byte elsewhere. -/
def Memory.fromBytes : Nat → List Byte → Memory
  | _, [] => []
  | i, v :: vs => if v = Memory.unlisted then Memory.fromBytes (i + 1) vs else (i, v) :: Memory.fromBytes (i + 1) vs

/-- The raw dump: the first `size` bytes in index order (R80, R264). -/
def Memory.dump (m : Memory) (size : Nat) : List Byte := (List.range size).map m.read

/-- The canonical form: indexes strictly rising, no entry equal to the unlisted byte. -/
def Memory.wf (m : Memory) : Bool :=
  decide (m.Pairwise (fun c d => c.1 < d.1)) && m.all (fun c => c.2 != Memory.unlisted)

/-- Every listed index lies below `size`. -/
def Memory.fits (m : Memory) (size : Nat) : Bool := m.all (fun c => decide (c.1 < size))

/-! ## Buffers and the bounds check -/

/-- A buffer's length (R33 to R36); NONE has no cartridge RAM. -/
def bufSize (c : Config) : Buf → Nat
  | .vram => (if c.enhanced then 2 else 1) * 0x2000
  | .wram => (if c.enhanced then 8 else 2) * 0x1000
  | .oam => 160
  | .cartRam =>
    match c.kind with
    | .none => 0
    | .mbc1 => c.cartRamSize
    | .mbc2 => c.cartRamSize
    | .mbc3 => c.cartRamSize

/-- A buffer's bytes. -/
def State.buffer (s : State) : Buf → Memory
  | .vram => s.vram
  | .wram => s.wram
  | .oam => s.oam
  | .cartRam => s.cartRam

/-- The state with a buffer's bytes replaced. -/
def State.putBuffer (s : State) : Buf → Memory → State
  | .vram, m => { s with vram := m }
  | .wram, m => { s with wram := m }
  | .oam, m => { s with oam := m }
  | .cartRam, m => { s with cartRam := m }

/-- `Buf[i]` (R24): BOUNDS at or beyond the length (R286). -/
def loadByte (s : State) (b : Buf) (i : Nat) : Except Fault Byte :=
  if i < bufSize s.cfg b then .ok ((s.buffer b).read i) else .error (.bounds b i)

/-- `Buf[i] <- v` (R24): BOUNDS at or beyond the length, and then no byte is stored (R285, R286). -/
def storeByte (s : State) (b : Buf) (i : Nat) (v : Byte) : Result :=
  if i < bufSize s.cfg b then .next (s.putBuffer b ((s.buffer b).write i v)) else .fault (.bounds b i)

/-! ## The ROM port -/

/-- `READ_ROM(off)` (R15). -/
def romAnswer (r : RomPort) (off : Nat) : Option Byte :=
  match r.answers.lookup off with
  | some answer => answer
  | none => if off < r.size then some (Config.romByte off) else none

/-- `RomRead(off)` (R25): ROM_UNMAPPED where the collaborator has no byte (R287). -/
def romRead (s : State) (off : Nat) : Except Fault Byte :=
  match romAnswer s.cfg.rom off with
  | some b => .ok b
  | none => .error (.romUnmapped off)

/-! ## The response and the diagnostics -/

/-- `return v` (R25, R105). -/
def State.respond (s : State) (v : Byte) : State := { s with response := some v }

/-- A read's end: its byte is returned, or its fault stops the block (R285). -/
def deliver (s : State) : Except Fault Byte → Result
  | .ok v => .next (s.respond v)
  | .error f => .fault f

/-- `report(E)` (R25, R281): appends the diagnostic and goes on. -/
def State.report (s : State) (e : ErrorKind) : State := { s with errors := s.errors ++ [e] }

/-- The code of a diagnostic (R280). -/
def ErrorKind.code : ErrorKind → Nat
  | .unsupported => 1
  | .noPersistence => 2
  | .dataIntegrity => 3
  | .prematureEnd => 4

/-! ## The I/O port -/

/-- `IoRead(a)` (R150): returns the next free byte and changes no block state but the model's draw counter. -/
def ioRead (s : State) (a : Addr) : State :=
  { s with response := some (Config.ioByte s.ioDraws a), ioDraws := s.ioDraws + 1 }

/-- `IoWrite(a, v)` (R151): records the event. -/
def ioWrite (s : State) (a : Addr) (v : Byte) : State :=
  { s with ioEvents := s.ioEvents ++ [⟨a, v⟩] }

/-! ## The RTC file -/

/-- RTC byte `i` (R46). -/
def RtcFile.get (r : RtcFile) : Fin 4 → Byte
  | 0 => r.b0
  | 1 => r.b1
  | 2 => r.b2
  | 3 => r.b3

/-- The RTC file with byte `i` written (R46). -/
def RtcFile.set (r : RtcFile) (v : Byte) : Fin 4 → RtcFile
  | 0 => { r with b0 := v }
  | 1 => { r with b1 := v }
  | 2 => { r with b2 := v }
  | 3 => { r with b3 := v }

/-- `RTC_INDEX_MAP(s)` (R17, R236). With no value selected, or one outside 0x08–0x0C, there is no index
(log entry 8). -/
def rtcIndex (m : RtcIndexMap) : Option Byte → Option (Fin 4)
  | none => none
  | some v =>
    if v = 0x08 then m.r08
    else if v = 0x09 then m.r09
    else if v = 0x0A then m.r0A
    else if v = 0x0B then m.r0B
    else if v = 0x0C then m.r0C
    else none

/-! ## Taking a request, and recording a stop -/

/-- The block takes the oldest request: its streams are attached and the response port is cleared (R83, R105,
R106). -/
def State.accept (s : State) (r : Request) (rest : List Request) : State :=
  { s with requests := rest, source := r.source, sink := r.sink, response := none }

/-- The model's record of how a request ended (R50, R285, R289): a fault or a refusal leaves the block as it
was but for the mark, which `step` obeys. -/
def State.recordStop (s : State) : Result → State
  | .next t => t
  | .fault f => { s with fault := some f }
  | .refused _ => { s with refused := true }

end Sys2Proof.Machine
end

