-- ==== Sys2Proof/Machine/Flags.lean ====
section
/-! DEFINITION. The block has no flags: every operation rule says "Flags: none" (spec/40_dispatcher.md, template).
Its one-bit results are the tests of a written byte that set the gate and mode bits (spec/30_encoding.md R112). -/

namespace Sys2Proof.Machine

/-- The enable test `v[3:0] = 0xA` (R191, R231). -/
def enableTest (v : Byte) : Bool := decide (v.extractLsb' 0 4 = 0xA#4)

/-- The mode test `v[0] = 1` (R197). -/
def modeTest (v : Byte) : Bool := decide (v.extractLsb' 0 1 = 1#1)

end Sys2Proof.Machine
end

