-- ==== Sys2Proof/Machine/Operands.lean ====
section
/-! DEFINITION. The operand forms (spec/30_encoding.md R112): the mapping of a bus address to an offset
(spec/20_memory.md R74 to R78) and the bank numbers a written byte gives (spec/42_mbc1.md R192 to R194,
spec/44_mbc3.md R232, R233). -/

namespace Sys2Proof.Machine

/-- The ROM page (R22). -/
def romPage : Nat := 0x4000

/-- The cartridge-RAM page (R22). -/
def ramPage : Nat := 0x2000

/-- ROM offset of 0x0000–0x3FFF: the raw address (R74). -/
def rom0Offset (a : Addr) : Nat := a.toNat

/-- ROM offset of 0x4000–0x7FFF (R74). -/
def romxOffset (s : State) (a : Addr) : Nat := s.romBankOffset + (a.toNat - 0x4000)

/-- `vram` index of 0x8000–0x9FFF (R78). -/
def vramIndex (s : State) (a : Addr) : Nat := s.vramBankOffset + (a.toNat - 0x8000)

/-- `cart_ram` index of 0xA000–0xBFFF (R75). -/
def xramIndex (s : State) (a : Addr) : Nat := s.ramBankOffset + (a.toNat - 0xA000)

/-- `wram` index of 0xC000–0xCFFF (R77). -/
def wram0Index (a : Addr) : Nat := a.toNat - 0xC000

/-- `wram` index of 0xD000–0xDFFF (R77). -/
def wramxIndex (s : State) (a : Addr) : Nat := s.wramBankOffset + (a.toNat - 0xD000)

/-- `oam` index of 0xFE00–0xFE9F (R78). -/
def oamIndex (a : Addr) : Nat := a.toNat - 0xFE00

/-- The echo's target, `a - 0xE000` (R137; spec/90_conflicts.md C1). -/
def echoTarget (a : Addr) : Addr := a - 0xE000

/-- `Alias1(n)` (R192): a bank number whose low five bits are zero is incremented. -/
def alias1 (n : BitVec 7) : BitVec 7 := if n.extractLsb' 0 5 = 0#5 then n + 1 else n

/-- `{rom_bank[6:5], v[4:0]}` (R193). -/
def withLowBits (n : BitVec 7) (v : Byte) : BitVec 7 := n.extractLsb' 5 2 ++ v.extractLsb' 0 5

/-- `{v[1:0], rom_bank[4:0]}` (R194). -/
def withHighBits (n : BitVec 7) (v : Byte) : BitVec 7 := v.extractLsb' 0 2 ++ n.extractLsb' 0 5

/-- The ROM bank offset of an MBC1 selector: `Alias1(n) × 0x4000` (R44, R193). -/
def mbc1RomOffset (n : BitVec 7) : Nat := (alias1 n).toNat * romPage

/-- The MBC1 RAM bank offset: `v[1:0] × 0x2000` (R194). -/
def mbc1RamOffset (v : Byte) : Nat := (v.extractLsb' 0 2).toNat * ramPage

/-- The MBC3 ROM bank number: `v[6:0]`, floored at 1 (R232). -/
def mbc3RomBank (v : Byte) : Nat := if v.extractLsb' 0 7 = 0#7 then 1 else (v.extractLsb' 0 7).toNat

end Sys2Proof.Machine
end

