-- ==== Sys2Proof/Machine/Controller.lean ====
section
/-! DEFINITION. The controller base (spec/41_controller_base.md): the gated read RD_XRAM and the gated store, the
RTC accesses (spec/44_mbc3.md R236, R240), and the enable writes that the echo can also reach
(spec/40_dispatcher.md R145). -/

namespace Sys2Proof.Machine

/-- `XramRead(a)` (R171): 0xFF while the gate is closed, without a bounds check (R290). -/
def xramRead (s : State) (a : Addr) : Except Fault Byte :=
  if s.ramEnabled then loadByte s .cartRam (xramIndex s a) else .ok 0xFF

/-- `RtcRead()` (R240): not gated. -/
def rtcRead (s : State) : Except Fault Byte :=
  match rtcIndex s.cfg.rtcIndexMap s.rtcSelect with
  | some i => .ok (s.rtc.get i)
  | none => .error (.rtcUnresolved s.rtcSelect)

/-- `RamStore(a, v)` (R175): discarded while the gate is closed, without a bounds check (R290). -/
def ramStore (a : Addr) (v : Byte) (s : State) : Result :=
  if s.ramEnabled then storeByte s .cartRam (xramIndex s a) v else .next s

/-- `RtcWrite(v)` (R236): not gated (R238). -/
def rtcWrite (v : Byte) (s : State) : Result :=
  match rtcIndex s.cfg.rtcIndexMap s.rtcSelect with
  | some i => .next { s with rtc := s.rtc.set v i }
  | none => .fault (.rtcUnresolved s.rtcSelect)

/-- The MBC1 RAM-enable write (R191). -/
def mbc1RamEnable (v : Byte) (s : State) : State :=
  if s.cfg.ramBankCount ≥ 1 then { s with ramEnabled := enableTest v } else s

/-- The MBC3 RAM and RTC enable write (R231): `rtc_enabled` is set whatever `RAM_BANK_COUNT` is. -/
def mbc3Enable (v : Byte) (s : State) : State :=
  if s.cfg.ramBankCount ≥ 1 then { s with ramEnabled := enableTest v, rtcEnabled := enableTest v }
  else { s with rtcEnabled := enableTest v }

/-- RD_XRAM (R170, R171): the RTC file in RTC mode of an MBC3 whose read path is `RTC_FILE`, else cartridge
RAM. -/
def execRdXram (a : Addr) (s : State) : Result :=
  if s.cfg.kind = .mbc3 ∧ s.cfg.rtcReadPath = .rtcFile ∧ s.ramBankIndex = -1 then deliver s (rtcRead s)
  else deliver s (xramRead s a)

end Sys2Proof.Machine
end

