-- ==== Sys2Proof/Machine/BaseTable.lean ====
section
/-! DEFINITION. The operations of the base region table (spec/40_dispatcher.md R131 to R151). -/

namespace Sys2Proof.Machine

/-! ## Reads -/

/-- RD_ROM0 (R131). -/
def execRdRom0 (a : Addr) (s : State) : Result := deliver s (romRead s (rom0Offset a))

/-- RD_ROMX (R132). -/
def execRdRomx (a : Addr) (s : State) : Result := deliver s (romRead s (romxOffset s a))

/-- RD_VRAM (R133). -/
def execRdVram (a : Addr) (s : State) : Result := deliver s (loadByte s .vram (vramIndex s a))

/-- RD_XRAM_NONE (R134): 0x00, not the 0xFF of a closed gate. -/
def execRdXramNone (_a : Addr) (s : State) : Result := .next (s.respond 0x00)

/-- RD_WRAM0 (R135). -/
def execRdWram0 (a : Addr) (s : State) : Result := deliver s (loadByte s .wram (wram0Index a))

/-- RD_WRAMX (R136). -/
def execRdWramx (a : Addr) (s : State) : Result := deliver s (loadByte s .wram (wramxIndex s a))

/-- RD_ECHO (R137): `RomRead(a - 0xE000)` under both values of `ECHO_REENTRY`; the target is computed once and
is never itself an echo address (R152). -/
def execRdEcho (a : Addr) (s : State) : Result := deliver s (romRead s (rom0Offset (echoTarget a)))

/-- RD_OAM (R138). -/
def execRdOam (a : Addr) (s : State) : Result := deliver s (loadByte s .oam (oamIndex a))

/-- RD_UNUSABLE (R139). -/
def execRdUnusable (_a : Addr) (s : State) : Result := .next (s.respond 0xFF)

/-- RD_IO (R150). -/
def execRdIo (a : Addr) (s : State) : Result := .next (ioRead s a)

/-! ## Writes -/

/-- WR_ROM_NOP (R141; R234 for MBC3, R221 for MBC2). -/
def execWrRomNop (_a : Addr) (_v : Byte) (s : State) : Result := .next s

/-- WR_VRAM (R142). -/
def execWrVram (a : Addr) (v : Byte) (s : State) : Result := storeByte s .vram (vramIndex s a) v

/-- WR_XRAM_NOP (R143). -/
def execWrXramNop (_a : Addr) (_v : Byte) (s : State) : Result := .next s

/-- WR_WRAM0 (R144). -/
def execWrWram0 (a : Addr) (v : Byte) (s : State) : Result := storeByte s .wram (wram0Index a) v

/-- WR_WRAMX (R146). -/
def execWrWramx (a : Addr) (v : Byte) (s : State) : Result := storeByte s .wram (wramxIndex s a) v

/-- WR_ECHO (R145, R147): the redirected address lies in 0x0000–0x1DFF, where the base table does nothing and
MBC1 and MBC3 have their enable writes. -/
def execWrEcho (_a : Addr) (v : Byte) (s : State) : Result :=
  match s.cfg.echoReentry with
  | .base => .next s
  | .full =>
    match s.cfg.kind with
    | .none => .next s
    | .mbc1 => .next (mbc1RamEnable v s)
    | .mbc2 => .next s
    | .mbc3 => .next (mbc3Enable v s)

/-- WR_OAM (R148). -/
def execWrOam (a : Addr) (v : Byte) (s : State) : Result := storeByte s .oam (oamIndex a) v

/-- WR_UNUSABLE (R149). -/
def execWrUnusable (_a : Addr) (_v : Byte) (s : State) : Result := .next s

/-- WR_IO (R151). -/
def execWrIo (a : Addr) (v : Byte) (s : State) : Result := .next (ioWrite s a v)

end Sys2Proof.Machine
end

