-- ==== Sys2Proof/Machine/Mbc1.lean ====
section
/-! DEFINITION. The MBC1 writes (spec/42_mbc1.md). -/

namespace Sys2Proof.Machine

/-- WR_MBC1_RAMEN (R191). -/
def execWrMbc1Ramen (_a : Addr) (v : Byte) (s : State) : Result := .next (mbc1RamEnable v s)

/-- The state with the MBC1 selector composed anew and the ROM bank remapped (R44, R193, R194). -/
def setMbc1RomBank (n : BitVec 7) (s : State) : State :=
  { s with romBank := n, romBankOffset := mbc1RomOffset n }

/-- WR_MBC1_ROMLO (R193): the selector keeps the unaliased bits. -/
def execWrMbc1Romlo (_a : Addr) (v : Byte) (s : State) : Result :=
  .next (setMbc1RomBank (withLowBits s.romBank v) s)

/-- WR_MBC1_BANKHI (R194): the RAM bank in RAM-banking mode, the selector's high bits in ROM-banking mode. -/
def execWrMbc1Bankhi (_a : Addr) (v : Byte) (s : State) : Result :=
  if s.modeSelect then .next (setMbc1RomBank (withHighBits s.romBank v) s)
  else .next { s with ramBankOffset := mbc1RamOffset v }

/-- WR_MBC1_MODE (R197): only with exactly 3 declared RAM banks (spec/92_eei_decisions.md D31). -/
def execWrMbc1Mode (_a : Addr) (v : Byte) (s : State) : Result :=
  if s.cfg.ramBankCount = 3 then .next { s with modeSelect := modeTest v } else .next s

/-- WR_MBC1_XRAM (R196). -/
def execWrMbc1Xram (a : Addr) (v : Byte) (s : State) : Result := ramStore a v s

end Sys2Proof.Machine
end

