-- ==== Sys2Proof/Machine/Mbc3.lean ====
section
/-! DEFINITION. The MBC3 writes (spec/44_mbc3.md). -/

namespace Sys2Proof.Machine

/-- WR_MBC3_ENABLE (R231). -/
def execWrMbc3Enable (_a : Addr) (v : Byte) (s : State) : Result := .next (mbc3Enable v s)

/-- WR_MBC3_ROMB (R232). -/
def execWrMbc3Romb (_a : Addr) (v : Byte) (s : State) : Result :=
  .next { s with romBankOffset := mbc3RomBank v * romPage }

/-- WR_MBC3_RAMB_RTC (R233): an RTC select while `rtc_enabled`, a RAM bank select, or ignored. -/
def execWrMbc3RambRtc (_a : Addr) (v : Byte) (s : State) : Result :=
  if (0x08 ≤ v.toNat ∧ v.toNat ≤ 0x0C) ∧ s.rtcEnabled = true then
    .next { s with ramBankIndex := -1, rtcSelect := some v }
  else if v.toNat ≤ 0x03 then
    .next { s with ramBankIndex := (v.toNat : Int), ramBankOffset := v.toNat * ramPage }
  else .next s

/-- WR_MBC3_XRAM (R235). -/
def execWrMbc3Xram (a : Addr) (v : Byte) (s : State) : Result :=
  if s.ramBankIndex = -1 then rtcWrite v s else ramStore a v s

end Sys2Proof.Machine
end

