-- ==== Sys2Proof/Machine/Persistence.lean ====
section
/-! DEFINITION. The persistence requests SAVE and LOAD (spec/45_persistence.md). -/

namespace Sys2Proof.Machine

/-- SAVE_BASE (R260). -/
def execSaveBase (s : State) : Result := .next (s.report .noPersistence)

/-- LOAD_BASE (R261). -/
def execLoadBase (s : State) : Result := .next (s.report .noPersistence)

/-- SAVE_MBC (R262): the whole buffer in index order, not gated. -/
def execSaveMbc (s : State) : Result :=
  if s.cfg.hasBattery then
    .next { s with sink := s.sink ++ s.cartRam.dump (bufSize s.cfg .cartRam) }
  else .next (s.report .noPersistence)

/-- The buffer after a load from a valid source: zero-filled, then the first `CART_RAM_SIZE` bytes of the
source (R263). -/
def fillCartRam (s : State) : State :=
  { s with cartRam := Memory.fromBytes 0 (s.source.bytes.take (bufSize s.cfg .cartRam)) }

/-- LOAD_MBC (R263): battery, validity, copy, length, in this order (R290). -/
def execLoadMbc (s : State) : Result :=
  if s.cfg.hasBattery then
    if s.source.valid then
      if s.source.bytes.length < bufSize s.cfg .cartRam then .next ((fillCartRam s).report .dataIntegrity)
      else .next (fillCartRam s)
    else .next (s.report .prematureEnd)
  else .next (s.report .noPersistence)

end Sys2Proof.Machine
end

