-- ==== Sys2Proof/Machine/Dispatch.lean ====
section
/-! DEFINITION. The meaning of every operation: one arm per constructor, each one call. -/

namespace Sys2Proof.Machine

def exec (i : Instr) (s : State) : Host.Outcome State Fault Refusal :=
  match i with
  | .rdRom0 a => Sys2Proof.Machine.execRdRom0 a s
  | .rdRomx a => Sys2Proof.Machine.execRdRomx a s
  | .rdVram a => Sys2Proof.Machine.execRdVram a s
  | .rdXramNone a => Sys2Proof.Machine.execRdXramNone a s
  | .rdXram a => Sys2Proof.Machine.execRdXram a s
  | .rdWram0 a => Sys2Proof.Machine.execRdWram0 a s
  | .rdWramx a => Sys2Proof.Machine.execRdWramx a s
  | .rdEcho a => Sys2Proof.Machine.execRdEcho a s
  | .rdOam a => Sys2Proof.Machine.execRdOam a s
  | .rdUnusable a => Sys2Proof.Machine.execRdUnusable a s
  | .rdIo a => Sys2Proof.Machine.execRdIo a s
  | .wrRomNop a v => Sys2Proof.Machine.execWrRomNop a v s
  | .wrVram a v => Sys2Proof.Machine.execWrVram a v s
  | .wrXramNop a v => Sys2Proof.Machine.execWrXramNop a v s
  | .wrWram0 a v => Sys2Proof.Machine.execWrWram0 a v s
  | .wrWramx a v => Sys2Proof.Machine.execWrWramx a v s
  | .wrEcho a v => Sys2Proof.Machine.execWrEcho a v s
  | .wrOam a v => Sys2Proof.Machine.execWrOam a v s
  | .wrUnusable a v => Sys2Proof.Machine.execWrUnusable a v s
  | .wrIo a v => Sys2Proof.Machine.execWrIo a v s
  | .wrMbc1Ramen a v => Sys2Proof.Machine.execWrMbc1Ramen a v s
  | .wrMbc1Romlo a v => Sys2Proof.Machine.execWrMbc1Romlo a v s
  | .wrMbc1Bankhi a v => Sys2Proof.Machine.execWrMbc1Bankhi a v s
  | .wrMbc1Mode a v => Sys2Proof.Machine.execWrMbc1Mode a v s
  | .wrMbc1Xram a v => Sys2Proof.Machine.execWrMbc1Xram a v s
  | .wrMbc3Enable a v => Sys2Proof.Machine.execWrMbc3Enable a v s
  | .wrMbc3Romb a v => Sys2Proof.Machine.execWrMbc3Romb a v s
  | .wrMbc3RambRtc a v => Sys2Proof.Machine.execWrMbc3RambRtc a v s
  | .wrMbc3Xram a v => Sys2Proof.Machine.execWrMbc3Xram a v s
  | .saveBase => Sys2Proof.Machine.execSaveBase s
  | .saveMbc => Sys2Proof.Machine.execSaveMbc s
  | .loadBase => Sys2Proof.Machine.execLoadBase s
  | .loadMbc => Sys2Proof.Machine.execLoadMbc s

end Sys2Proof.Machine
end

