-- ==== Sys2Proof/Machine/Fetch.lean ====
section
/-! DEFINITION. Taking the next request (spec/30_encoding.md R100, R107; spec/60_exceptions.md R285, R289): what a
step finds before it runs an operation. -/

namespace Sys2Proof.Machine

/-- What a step finds. -/
inductive Fetched where
  /-- The block is stuck after a model fault (R285). -/
  | stuck (f : Fault)
  /-- The block is stuck after a refusal (R289). -/
  | stopped
  /-- No request is pending (R30). -/
  | idle
  /-- The word spells no request (R104). -/
  | rejected (e : DecodeError)
  /-- The operation, and the state with its request taken. -/
  | run (i : Instr) (s : State)
  deriving DecidableEq, Repr

/-- Takes the oldest request and decodes its word under the configured kind. -/
def fetch (s : State) : Fetched :=
  match s.fault with
  | some f => .stuck f
  | none =>
    if s.refused then .stopped
    else
      match s.requests with
      | [] => .idle
      | r :: rest =>
        match decode s.cfg.kind r.word with
        | .ok i => .run i (s.accept r rest)
        | .error e => .rejected e

/-- The refusal of a word that spells no request (R104, R289). -/
def refusalOf : DecodeError → Refusal
  | .reservedField => .reservedField

/-- The state with a request put first in the queue, its streams those already attached. -/
def presentWord (s : State) (w : ReqWord) : State :=
  { s with requests := ⟨w, s.source, s.sink⟩ :: s.requests }

end Sys2Proof.Machine
end

