-- ==== Sys2Proof/Machine/Step.lean ====
section
/-! DEFINITION. One step: one request (spec/30_encoding.md R100; spec/20_memory.md R83). -/

namespace Sys2Proof.Machine

/-- Takes the oldest request and runs it; with none pending nothing happens (R30); after a fault or a refusal
the block takes no further request (R285, R289). -/
def step (s : State) : Host.Outcome State Fault Refusal :=
  match fetch s with
  | .stuck f => .fault f
  | .stopped => .refused .stopped
  | .idle => .next s
  | .rejected e => .refused (refusalOf e)
  | .run i t => exec i t

/-- `s` with the table word's request put first among the pending ones (log entry 7). -/
def State.withFetchWord (s : State) (nbits w : Nat) : State := presentWord s (tableWord nbits w)

end Sys2Proof.Machine
end

