-- ==== Sys2Proof/Machine/Bus.lean ====
section
/-! DEFINITION. The spec's top-level read and write as tables of their own (spec/30_encoding.md R110): the base
region table (spec/40_dispatcher.md R130, R140), the controller read and write (spec/41_controller_base.md R170,
R173), and each kind's write (spec/42_mbc1.md R190, spec/43_mbc2.md R221, spec/44_mbc3.md R230). Every controller
falls through to the one base table (R176). -/

namespace Sys2Proof.Machine

/-- `BaseRead(a)` (R130), in the source's priority order. -/
def baseRead (a : Addr) (s : State) : Result :=
  if a.toNat ≤ 0x3FFF then execRdRom0 a s
  else if a.toNat ≤ 0x7FFF then execRdRomx a s
  else if a.toNat ≤ 0x9FFF then execRdVram a s
  else if a.toNat ≤ 0xBFFF then execRdXramNone a s
  else if a.toNat ≤ 0xCFFF then execRdWram0 a s
  else if a.toNat ≤ 0xDFFF then execRdWramx a s
  else if a.toNat ≤ 0xFDFF then execRdEcho a s
  else if 0xFEA0 ≤ a.toNat ∧ a.toNat ≤ 0xFEFF then execRdUnusable a s
  else if a.toNat ≤ 0xFE9F then execRdOam a s
  else execRdIo a s

/-- `BaseWrite(a, v)` (R140). -/
def baseWrite (a : Addr) (v : Byte) (s : State) : Result :=
  if a.toNat ≤ 0x7FFF then execWrRomNop a v s
  else if a.toNat ≤ 0x9FFF then execWrVram a v s
  else if a.toNat ≤ 0xBFFF then execWrXramNop a v s
  else if a.toNat ≤ 0xCFFF then execWrWram0 a v s
  else if a.toNat ≤ 0xDFFF then execWrWramx a v s
  else if a.toNat ≤ 0xFDFF then execWrEcho a v s
  else if 0xFEA0 ≤ a.toNat ∧ a.toNat ≤ 0xFEFF then execWrUnusable a v s
  else if a.toNat ≤ 0xFE9F then execWrOam a v s
  else execWrIo a v s

/-- `CtlRead(a)` (R170). -/
def ctlRead (a : Addr) (s : State) : Result :=
  if 0xA000 ≤ a.toNat ∧ a.toNat ≤ 0xBFFF then execRdXram a s else baseRead a s

/-- `Mbc1Write(a, v)` (R190). -/
def mbc1Write (a : Addr) (v : Byte) (s : State) : Result :=
  if a.toNat ≤ 0x1FFF then execWrMbc1Ramen a v s
  else if a.toNat ≤ 0x3FFF then execWrMbc1Romlo a v s
  else if a.toNat ≤ 0x5FFF then execWrMbc1Bankhi a v s
  else if a.toNat ≤ 0x7FFF then execWrMbc1Mode a v s
  else if 0xA000 ≤ a.toNat ∧ a.toNat ≤ 0xBFFF then execWrMbc1Xram a v s
  else baseWrite a v s

/-- `Mbc3Write(a, v)` (R230). -/
def mbc3Write (a : Addr) (v : Byte) (s : State) : Result :=
  if a.toNat ≤ 0x1FFF then execWrMbc3Enable a v s
  else if a.toNat ≤ 0x3FFF then execWrMbc3Romb a v s
  else if a.toNat ≤ 0x5FFF then execWrMbc3RambRtc a v s
  else if 0xA000 ≤ a.toNat ∧ a.toNat ≤ 0xBFFF then execWrMbc3Xram a v s
  else baseWrite a v s

/-- `BusRead(a)` (R110). -/
def busRead (a : Addr) (s : State) : Result :=
  match s.cfg.kind with
  | .none => baseRead a s
  | .mbc1 => ctlRead a s
  | .mbc2 => ctlRead a s
  | .mbc3 => ctlRead a s

/-- `BusWrite(a, v)` (R110) with `CtlWrite` (R173): the MBC2 stub has no write of its own (R221). -/
def busWrite (a : Addr) (v : Byte) (s : State) : Result :=
  match s.cfg.kind with
  | .none => baseWrite a v s
  | .mbc1 => mbc1Write a v s
  | .mbc2 => baseWrite a v s
  | .mbc3 => mbc3Write a v s

end Sys2Proof.Machine
end

