-- ==== Sys2Proof/Machine/Construct.lean ====
section
/-! DEFINITION. Construction, the block's only reset (spec/70_reset_and_hazards.md R310 to R317;
spec/30_encoding.md R113; spec/43_mbc2.md R220). -/

namespace Sys2Proof.Machine

/-- The controller kind a construction asks for: one of the four, or another by name (R3, R113). -/
inductive KindName where
  | known (k : Kind)
  | other (name : String)
  deriving DecidableEq, Repr

/-- `INIT_CONTENTS` (R21, R312): the arbitrary launch contents. A kind that lacks a buffer (R51) does not look
at its contents. -/
structure InitContents where
  vram    : List Byte
  wram    : List Byte
  oam     : List Byte
  cartRam : List Byte
  rtc     : RtcFile
  deriving DecidableEq, Repr

/-- The constraints of R317; the RTC file has its four bytes by its type. -/
def configOk (c : Config) (init : InitContents) : Bool :=
  decide (c.wramBankOffsetInit % 0x1000 = 0 ∧ c.wramBankOffsetInit + 0x1000 ≤ bufSize c .wram)
    && decide (c.vramBankOffsetInit % 0x2000 = 0 ∧ c.vramBankOffsetInit + 0x2000 ≤ bufSize c .vram)
    && decide (init.vram.length = bufSize c .vram)
    && decide (init.wram.length = bufSize c .wram)
    && decide (init.oam.length = bufSize c .oam)
    && (decide (c.kind = .none) || decide (init.cartRam.length = bufSize c .cartRam))

/-- The block with every register at its construction value (R311) and the buffers at their launch contents
(R312). -/
def built (c : Config) (init : InitContents) : State where
  cfg := c
  vram := Memory.fromBytes 0 init.vram
  wram := Memory.fromBytes 0 init.wram
  oam := Memory.fromBytes 0 init.oam
  cartRam := if c.kind = .none then [] else Memory.fromBytes 0 init.cartRam
  wramBankOffset := c.wramBankOffsetInit
  vramBankOffset := c.vramBankOffsetInit
  romBankOffset := 0x4000
  ramBankOffset := 0x0000
  ramEnabled := false
  romBank := 0x01
  modeSelect := false
  rtcEnabled := false
  rtc := if c.kind = .mbc3 then init.rtc else ⟨0, 0, 0, 0⟩
  ramBankIndex := 0
  rtcSelect := none
  errors := []
  fault := none
  refused := false
  ioEvents := []
  ioDraws := 0
  requests := []
  source := ⟨false, []⟩
  sink := []
  response := none

/-- Construction (R310): another kind is refused (R113), a broken constraint is refused (R317), and MBC2 reports
UNSUPPORTED once (R220, R313).
DESIGN CHOICE (log entry 14), unsafe only for a claim about the reason: the kind is looked at before the
constraints, so a construction that names another kind and also breaks a constraint is refused with
UNSUPPORTED_KIND. R113, R289 and R317 give both reasons and no rule orders them (R290 orders requests only). -/
def construct (kind : KindName) (p : Params) (init : InitContents) : Result :=
  match kind with
  | .other name => .refused (.unsupportedKind name)
  | .known k =>
    if configOk ⟨p, k⟩ init then
      match k with
      | .none => .next (built ⟨p, k⟩ init)
      | .mbc1 => .next (built ⟨p, k⟩ init)
      | .mbc2 => .next ((built ⟨p, k⟩ init).report .unsupported)
      | .mbc3 => .next (built ⟨p, k⟩ init)
    else .refused .badConfig

end Sys2Proof.Machine
end

