-- ==== Sys2Proof/Safety.lean ====
section
/-! DEFINITION. The invariant of the block, in the terms claims use: the forms of the buffers, the ranges of the
bank offsets (spec/10_state.md R37 to R40), the MBC1 invariant (R44), the MBC3 invariants (spec/44_mbc3.md R237,
R239), the constants of NONE and MBC2 (R39, spec/43_mbc2.md R223) and the one report of UNSUPPORTED (R220, R283). -/

namespace Sys2Proof.Machine

/-- A buffer is in canonical form and lists no index at or beyond its length. -/
structure State.BufferOk (s : State) (b : Buf) : Prop where
  form : (s.buffer b).wf = true
  fits : (s.buffer b).fits (bufSize s.cfg b) = true

/-- What every state a run reaches has. -/
structure State.Inv (s : State) : Prop where
  /-- Every buffer is well formed. -/
  buffers : ∀ b, s.BufferOk b
  /-- R37. -/
  wramOffset : s.wramBankOffset % 0x1000 = 0 ∧ s.wramBankOffset + 0x1000 ≤ bufSize s.cfg .wram
  /-- R38. -/
  vramOffset : s.vramBankOffset % 0x2000 = 0 ∧ s.vramBankOffset + 0x2000 ≤ bufSize s.cfg .vram
  /-- R39, with the floor of R192 and R232. -/
  romOffset : s.romBankOffset % 0x4000 = 0 ∧ 0x4000 ≤ s.romBankOffset ∧ s.romBankOffset < 0x200000
  /-- R40. -/
  ramOffset : s.ramBankOffset ∈ [0x0000, 0x2000, 0x4000, 0x6000]
  /-- R44. -/
  mbc1Mapped : s.cfg.kind = .mbc1 → s.romBankOffset = mbc1RomOffset s.romBank
  /-- R47, R237. -/
  mbc3Bank : s.cfg.kind = .mbc3 → s.ramBankIndex ∈ [(-1 : Int), 0, 1, 2, 3] ∧
    (0 ≤ s.ramBankIndex → (s.ramBankOffset : Int) = s.ramBankIndex * 0x2000)
  /-- R48, R239. -/
  mbc3Select : s.cfg.kind = .mbc3 →
    (s.ramBankIndex = -1 → s.rtcSelect ≠ none) ∧ ∀ v, s.rtcSelect = some v → 0x08 ≤ v.toNat ∧ v.toNat ≤ 0x0C
  /-- R39, R223: constants of the kinds without controller writes. -/
  fixedKinds : s.cfg.kind = .none ∨ s.cfg.kind = .mbc2 →
    s.romBankOffset = 0x4000 ∧ s.ramBankOffset = 0 ∧ s.ramEnabled = false
  /-- R197: with any other count the mode stays RAM-banking. -/
  modeCapable : s.modeSelect = true → s.cfg.kind = .mbc1 ∧ s.cfg.ramBankCount = 3
  /-- R191, R231: without a declared RAM bank the gate stays closed. -/
  gateCapable : s.ramEnabled = true → 1 ≤ s.cfg.ramBankCount
  /-- R220, R283: UNSUPPORTED stands once for MBC2 and never for another kind. -/
  unsupportedOnce : s.errors.count .unsupported = if s.cfg.kind = .mbc2 then 1 else 0

end Sys2Proof.Machine
end

