-- ==== Sys2Proof/Certificates/Slice0/Obligations.lean ====
section
/-! DEFINITION. The statements about the model, each from the numbered rules of spec/. A statement that says
"{ s with f := x }" says the whole frame: every other field, every byte of every buffer among them, is as before. -/

open Sys2Proof Sys2Proof.Machine

/-! ## The words the statements use -/

/-- `lo ≤ a ≤ hi`. -/
def Sys2Proof.Claims.within (a : Addr) (lo hi : Nat) : Prop := lo ≤ a.toNat ∧ a.toNat ≤ hi

/-- A READ of `a` under kind `k` is the operation `i`. -/
def Sys2Proof.Claims.readsAs (k : Kind) (a : Addr) (i : Instr) : Prop := decode k (requestWord 0b00 a 0) = .ok i

/-- A WRITE of `v` to `a` under kind `k` is the operation `i`. -/
def Sys2Proof.Claims.writesAs (k : Kind) (a : Addr) (v : Byte) (i : Instr) : Prop :=
  decode k (requestWord 0b01 a v) = .ok i

/-- A request ends with byte `i` of buffer `b` holding `v`, every other byte of every buffer as before, and
every other field as before. -/
def Sys2Proof.Claims.storesAt (res : Result) (s : State) (b : Buf) (i : Nat) (v : Byte) : Prop :=
  ∃ t, res = .next t ∧
    (∀ c j, (t.buffer c).read j = if c = b ∧ j = i then v else (s.buffer c).read j) ∧
    t = { s with vram := t.vram, wram := t.wram, oam := t.oam, cartRam := t.cartRam }

/-- The oldest pending request is a WRITE to an address from `lo` to `hi`. -/
def Sys2Proof.Claims.writePending (s : State) (lo hi : Nat) : Prop :=
  ∃ r rest, s.requests = r :: rest ∧ opField r.word = 0b01 ∧ Sys2Proof.Claims.within (addrField r.word) lo hi

/-- The oldest pending request is a READ or a WRITE. -/
def Sys2Proof.Claims.busRequestPending (s : State) : Prop :=
  ∃ r rest, s.requests = r :: rest ∧ (opField r.word = 0b00 ∨ opField r.word = 0b01)

/-- A row of the read or write table: a range, the kinds that have it, the operation. -/
structure Sys2Proof.Claims.Row (α : Type) where
  lo    : Nat
  hi    : Nat
  kinds : List Kind
  op    : α

/-- The row holds for kind `k` and address `a`. -/
def Sys2Proof.Claims.Row.holds {α : Type} (r : Sys2Proof.Claims.Row α) (k : Kind) (a : Addr) : Bool :=
  r.kinds.contains k && decide (r.lo ≤ a.toNat) && decide (a.toNat ≤ r.hi)

/-- The read table of R108. -/
def Sys2Proof.Claims.readRows : List (Sys2Proof.Claims.Row (Addr → Instr)) :=
  [ ⟨0x0000, 0x3FFF, [.none, .mbc1, .mbc2, .mbc3], .rdRom0⟩,
    ⟨0x4000, 0x7FFF, [.none, .mbc1, .mbc2, .mbc3], .rdRomx⟩,
    ⟨0x8000, 0x9FFF, [.none, .mbc1, .mbc2, .mbc3], .rdVram⟩,
    ⟨0xA000, 0xBFFF, [.none], .rdXramNone⟩,
    ⟨0xA000, 0xBFFF, [.mbc1, .mbc2, .mbc3], .rdXram⟩,
    ⟨0xC000, 0xCFFF, [.none, .mbc1, .mbc2, .mbc3], .rdWram0⟩,
    ⟨0xD000, 0xDFFF, [.none, .mbc1, .mbc2, .mbc3], .rdWramx⟩,
    ⟨0xE000, 0xFDFF, [.none, .mbc1, .mbc2, .mbc3], .rdEcho⟩,
    ⟨0xFE00, 0xFE9F, [.none, .mbc1, .mbc2, .mbc3], .rdOam⟩,
    ⟨0xFEA0, 0xFEFF, [.none, .mbc1, .mbc2, .mbc3], .rdUnusable⟩,
    ⟨0xFF00, 0xFFFF, [.none, .mbc1, .mbc2, .mbc3], .rdIo⟩ ]

/-- The write table of R109. -/
def Sys2Proof.Claims.writeRows : List (Sys2Proof.Claims.Row (Addr → Byte → Instr)) :=
  [ ⟨0x0000, 0x7FFF, [.none, .mbc2], .wrRomNop⟩,
    ⟨0x6000, 0x7FFF, [.mbc3], .wrRomNop⟩,
    ⟨0x0000, 0x1FFF, [.mbc1], .wrMbc1Ramen⟩,
    ⟨0x2000, 0x3FFF, [.mbc1], .wrMbc1Romlo⟩,
    ⟨0x4000, 0x5FFF, [.mbc1], .wrMbc1Bankhi⟩,
    ⟨0x6000, 0x7FFF, [.mbc1], .wrMbc1Mode⟩,
    ⟨0x0000, 0x1FFF, [.mbc3], .wrMbc3Enable⟩,
    ⟨0x2000, 0x3FFF, [.mbc3], .wrMbc3Romb⟩,
    ⟨0x4000, 0x5FFF, [.mbc3], .wrMbc3RambRtc⟩,
    ⟨0x8000, 0x9FFF, [.none, .mbc1, .mbc2, .mbc3], .wrVram⟩,
    ⟨0xA000, 0xBFFF, [.none, .mbc2], .wrXramNop⟩,
    ⟨0xA000, 0xBFFF, [.mbc1], .wrMbc1Xram⟩,
    ⟨0xA000, 0xBFFF, [.mbc3], .wrMbc3Xram⟩,
    ⟨0xC000, 0xCFFF, [.none, .mbc1, .mbc2, .mbc3], .wrWram0⟩,
    ⟨0xD000, 0xDFFF, [.none, .mbc1, .mbc2, .mbc3], .wrWramx⟩,
    ⟨0xE000, 0xFDFF, [.none, .mbc1, .mbc2, .mbc3], .wrEcho⟩,
    ⟨0xFE00, 0xFE9F, [.none, .mbc1, .mbc2, .mbc3], .wrOam⟩,
    ⟨0xFEA0, 0xFEFF, [.none, .mbc1, .mbc2, .mbc3], .wrUnusable⟩,
    ⟨0xFF00, 0xFFFF, [.none, .mbc1, .mbc2, .mbc3], .wrIo⟩ ]

open Sys2Proof.Claims

/-! ## Encoding and decode -/

/-- R100 to R103: OP is bits 25:24, ADDR bits 23:8 and DATA bits 7:0 of a request word, and the three fields
are the whole word. -/
def Obligations.RequestWordFields : Prop :=
  (∀ w : ReqWord, (opField w).toNat = w.toNat / 2 ^ 24 ∧ (addrField w).toNat = w.toNat / 2 ^ 8 % 2 ^ 16 ∧
    (dataField w).toNat = w.toNat % 2 ^ 8) ∧
  (∀ w : ReqWord, requestWord (opField w) (addrField w) (dataField w) = w) ∧
  (∀ op a d, opField (requestWord op a d) = op ∧ addrField (requestWord op a d) = a ∧
    dataField (requestWord op a d) = d)

/-- Every operation a kind has, at every operand its encoding admits, is read back from its word. -/
def Obligations.DecodeOfEncode : Prop :=
  ∀ (k : Kind) (i : Instr), i.wf k = true → decode k (encode i) = .ok i

/-- Every word that decodes is the word of the operation it decodes to, and that operation is one the kind has. -/
def Obligations.EncodeOfDecode : Prop :=
  ∀ (k : Kind) (w : ReqWord) (i : Instr), decode k w = .ok i → i.wf k = true ∧ encode i = w

/-- R104, R289, R290: a word with a non-zero reserved field spells no request: the step is refused with
RESERVED_FIELD and the record of it changes the refused mark only. -/
def Obligations.ReservedFieldIsRefused : Prop :=
  ∀ (s : State) (r : Request) (rest : List Request), s.fault = none → s.refused = false → s.requests = r :: rest →
    ((opField r.word = 0b00 ∧ r.word.toNat % 2 ^ 8 ≠ 0) ∨
      ((opField r.word = 0b10 ∨ opField r.word = 0b11) ∧ r.word.toNat % 2 ^ 24 ≠ 0)) →
    step s = .refused .reservedField ∧ s.recordStop (step s) = { s with refused := true }

/-- R107: every request word with zero reserved fields names exactly one operation, under every kind. -/
def Obligations.DecodeIsTotal : Prop :=
  (∀ (k : Kind) (a : Addr), ∃ i, decode k (requestWord 0b00 a 0) = .ok i) ∧
  (∀ (k : Kind) (a : Addr) (d : Byte), ∃ i, decode k (requestWord 0b01 a d) = .ok i) ∧
  (∀ k : Kind, decode k (requestWord 0b10 0 0) = .ok (if k = .none then .saveBase else .saveMbc)) ∧
  (∀ k : Kind, decode k (requestWord 0b11 0 0) = .ok (if k = .none then .loadBase else .loadMbc))

/-- R108: the read table, row by row, and its rows cover every address once for every kind. -/
def Obligations.ReadTable : Prop :=
  (∀ row ∈ readRows, ∀ (k : Kind) (a : Addr), row.holds k a = true → readsAs k a (row.op a)) ∧
  (∀ (k : Kind) (a : Addr), (readRows.filter (fun row => row.holds k a)).length = 1)

/-- R109: the write table, row by row, and its rows cover every address once for every kind. -/
def Obligations.WriteTable : Prop :=
  (∀ row ∈ writeRows, ∀ (k : Kind) (a : Addr) (v : Byte), row.holds k a = true → writesAs k a v (row.op a v)) ∧
  (∀ (k : Kind) (a : Addr), (writeRows.filter (fun row => row.holds k a)).length = 1)

/-- R117: the worked decode examples. -/
def Obligations.WorkedDecodeExamples : Prop :=
  (∀ k : Kind, decode k 0x0412300#26 = .ok (.rdRomx 0x4123)) ∧
  decode .mbc1 0x1200000#26 = .ok (.wrMbc1Romlo 0x2000 0x00) ∧
  decode .mbc3 0x1200000#26 = .ok (.wrMbc3Romb 0x2000 0x00) ∧
  decode .none 0x1200000#26 = .ok (.wrRomNop 0x2000 0x00) ∧
  decode .mbc2 0x1200000#26 = .ok (.wrRomNop 0x2000 0x00) ∧
  (∀ k : Kind, decode k 0x0412301#26 = .error .reservedField) ∧
  (∀ k : Kind, decode k 0x0FEA000#26 = .ok (.rdUnusable 0xFEA0))

/-- R115, R116: the word of `RD a` is `a << 8`, of `WR a, d` it is `0x1000000 | a << 8 | d`, of SAVE and LOAD
0x2000000 and 0x3000000, and the pseudo-requests are WRITE requests. -/
def Obligations.AssemblerWords : Prop :=
  (∀ a : Addr, (asmRd a).toNat = a.toNat * 2 ^ 8) ∧
  (∀ (a : Addr) (d : Byte), (asmWr a d).toNat = 0x1000000 + a.toNat * 2 ^ 8 + d.toNat) ∧
  asmSave.toNat = 0x2000000 ∧ asmLoad.toNat = 0x3000000 ∧
  asmRamOn.toNat = 0x100000A ∧ asmRamOff.toNat = 0x1000000 ∧
  (∀ n : Byte, (asmRomSel n).toNat = 0x1200000 + n.toNat ∧ (asmBankSel n).toNat = 0x1400000 + n.toNat ∧
    (asmModeSel n).toNat = 0x1600000 + n.toNat)

/-! ## The step -/

/-- A step runs the decoded request: the oldest request is taken, its streams are attached, the response port is
cleared, and the operation runs. -/
def Obligations.StepRunsTheDecodedRequest : Prop :=
  ∀ (s : State) (r : Request) (rest : List Request) (i : Instr), s.fault = none → s.refused = false →
    s.requests = r :: rest → decode s.cfg.kind r.word = .ok i →
    step s = exec i { s with requests := rest, source := r.source, sink := r.sink, response := none }

/-- R30, R83: a step takes the oldest request and leaves the others in their order; with none pending the
block's state does not change. -/
def Obligations.RequestsAreTakenInOrder : Prop :=
  (∀ (s t : State) (r : Request) (rest : List Request), s.requests = r :: rest → step s = .next t →
    t.requests = rest) ∧
  (∀ s : State, s.fault = none → s.refused = false → s.requests = [] → step s = .next s)

/-- R285: a model fault leaves the block as it was, sets the mark to the fault, and the block is stuck: it takes
no further request and the mark stays. -/
def Obligations.FaultLeavesTheBlockStuck : Prop :=
  ∀ (s : State) (f : Fault), step s = .fault f →
    s.recordStop (step s) = { s with fault := some f } ∧
    step { s with fault := some f } = .fault f ∧
    State.recordStop { s with fault := some f } (step { s with fault := some f }) = { s with fault := some f }

/-- R289: a refusal of a request changes the refused mark only, and the block takes no further request. -/
def Obligations.RefusalLeavesTheBlockStuck : Prop :=
  ∀ (s : State) (x : Refusal), step s = .refused x →
    s.recordStop (step s) = { s with refused := true } ∧
    step { s with refused := true } = .refused .stopped ∧
    (x = .reservedField ∨ (x = .stopped ∧ s.refused = true))

/-! ## Reads of the base region table -/

/-- R131, R132, R287: RD_ROM0 returns the collaborator's byte at the raw address, RD_ROMX the one at
`rom_bank_offset + (a - 0x4000)`; where the collaborator has none, ROM_UNMAPPED. In a state of the invariant the
offset of RD_ROMX is at most 0x1FFFFF, and for NONE and MBC2 it is the address itself. -/
def Obligations.RomReadsReturnTheCollaboratorsByte : Prop :=
  (∀ (k : Kind) (a : Addr), within a 0x0000 0x3FFF → readsAs k a (.rdRom0 a)) ∧
  (∀ (s : State) (a : Addr) (b : Byte), within a 0x0000 0x3FFF → romAnswer s.cfg.rom a.toNat = some b →
    exec (.rdRom0 a) s = .next { s with response := some b }) ∧
  (∀ (s : State) (a : Addr), within a 0x0000 0x3FFF → romAnswer s.cfg.rom a.toNat = none →
    exec (.rdRom0 a) s = .fault (.romUnmapped a.toNat)) ∧
  (∀ (k : Kind) (a : Addr), within a 0x4000 0x7FFF → readsAs k a (.rdRomx a)) ∧
  (∀ (s : State) (a : Addr) (b : Byte), within a 0x4000 0x7FFF →
    romAnswer s.cfg.rom (s.romBankOffset + (a.toNat - 0x4000)) = some b →
    exec (.rdRomx a) s = .next { s with response := some b }) ∧
  (∀ (s : State) (a : Addr), within a 0x4000 0x7FFF →
    romAnswer s.cfg.rom (s.romBankOffset + (a.toNat - 0x4000)) = none →
    exec (.rdRomx a) s = .fault (.romUnmapped (s.romBankOffset + (a.toNat - 0x4000)))) ∧
  (∀ (s : State) (a : Addr), s.Inv → within a 0x4000 0x7FFF →
    s.romBankOffset + (a.toNat - 0x4000) ≤ 0x1FFFFF ∧
    (s.cfg.kind = .none ∨ s.cfg.kind = .mbc2 → s.romBankOffset + (a.toNat - 0x4000) = a.toNat))

/-- R137, R145, R152: `read(a) == read(a - 0xE000)` for every echo address, whichever dispatch the redirect
re-enters; the target is never an echo address, and an address from 0xFE00 up is no echo address. -/
def Obligations.EchoReadsAreReadsOfTheTarget : Prop :=
  (∀ (k : Kind) (a : Addr), within a 0xE000 0xFDFF → readsAs k a (.rdEcho a)) ∧
  (∀ (s : State) (a : Addr), within a 0xE000 0xFDFF →
    (a - 0xE000).toNat = a.toNat - 0xE000 ∧ (a - 0xE000).toNat ≤ 0x1DFF ∧
    exec (.rdEcho a) s = baseRead (a - 0xE000) s ∧ exec (.rdEcho a) s = busRead (a - 0xE000) s ∧
    exec (.rdEcho a) s = busRead a s) ∧
  (∀ (s : State) (a : Addr) (b : Byte), within a 0xE000 0xFDFF → romAnswer s.cfg.rom (a.toNat - 0xE000) = some b →
    exec (.rdEcho a) s = .next { s with response := some b }) ∧
  (∀ (s : State) (a : Addr), within a 0xE000 0xFDFF → romAnswer s.cfg.rom (a.toNat - 0xE000) = none →
    exec (.rdEcho a) s = .fault (.romUnmapped (a.toNat - 0xE000))) ∧
  (∀ (k : Kind) (a b : Addr), within a 0xFE00 0xFFFF → ¬ readsAs k a (.rdEcho b))

/-- R133, R135, R136, R138: RD_VRAM, RD_WRAM0, RD_WRAMX and RD_OAM return the byte of the buffer at the mapped
index; RD_VRAM and RD_WRAMX raise BOUNDS at or beyond the buffer's length, which no state of the invariant
reaches. -/
def Obligations.BufferReadsReturnTheMappedByte : Prop :=
  (∀ (k : Kind) (a : Addr), (within a 0x8000 0x9FFF → readsAs k a (.rdVram a)) ∧
    (within a 0xC000 0xCFFF → readsAs k a (.rdWram0 a)) ∧ (within a 0xD000 0xDFFF → readsAs k a (.rdWramx a)) ∧
    (within a 0xFE00 0xFE9F → readsAs k a (.rdOam a))) ∧
  (∀ (s : State) (a : Addr), within a 0x8000 0x9FFF →
    exec (.rdVram a) s =
      if s.vramBankOffset + (a.toNat - 0x8000) < (if s.cfg.enhanced then 0x4000 else 0x2000) then
        .next { s with response := some (s.vram.read (s.vramBankOffset + (a.toNat - 0x8000))) }
      else .fault (.bounds .vram (s.vramBankOffset + (a.toNat - 0x8000)))) ∧
  (∀ (s : State) (a : Addr), within a 0xC000 0xCFFF →
    exec (.rdWram0 a) s = .next { s with response := some (s.wram.read (a.toNat - 0xC000)) }) ∧
  (∀ (s : State) (a : Addr), within a 0xD000 0xDFFF →
    exec (.rdWramx a) s =
      if s.wramBankOffset + (a.toNat - 0xD000) < (if s.cfg.enhanced then 0x8000 else 0x2000) then
        .next { s with response := some (s.wram.read (s.wramBankOffset + (a.toNat - 0xD000))) }
      else .fault (.bounds .wram (s.wramBankOffset + (a.toNat - 0xD000)))) ∧
  (∀ (s : State) (a : Addr), within a 0xFE00 0xFE9F →
    exec (.rdOam a) s = .next { s with response := some (s.oam.read (a.toNat - 0xFE00)) }) ∧
  (∀ (s : State) (a : Addr), s.Inv →
    (within a 0x8000 0x9FFF →
      s.vramBankOffset + (a.toNat - 0x8000) < (if s.cfg.enhanced then 0x4000 else 0x2000)) ∧
    (within a 0xD000 0xDFFF →
      s.wramBankOffset + (a.toNat - 0xD000) < (if s.cfg.enhanced then 0x8000 else 0x2000)))

/-- R134, R139: RD_XRAM_NONE returns 0x00 under NONE and RD_UNUSABLE 0xFF under every kind, regardless of the
state. -/
def Obligations.FixedByteReads : Prop :=
  (∀ a : Addr, within a 0xA000 0xBFFF → readsAs .none a (.rdXramNone a)) ∧
  (∀ (s : State) (a : Addr), within a 0xA000 0xBFFF →
    exec (.rdXramNone a) s = .next { s with response := some 0x00 }) ∧
  (∀ (k : Kind) (a : Addr), within a 0xFEA0 0xFEFF → readsAs k a (.rdUnusable a)) ∧
  (∀ (s : State) (a : Addr), within a 0xFEA0 0xFEFF →
    exec (.rdUnusable a) s = .next { s with response := some 0xFF })

/-- R150: RD_IO returns some byte, a draw, and changes nothing but the model's draw counter. -/
def Obligations.IoReadReturnsADraw : Prop :=
  (∀ (k : Kind) (a : Addr), within a 0xFF00 0xFFFF → readsAs k a (.rdIo a)) ∧
  (∀ (s : State) (a : Addr), within a 0xFF00 0xFFFF →
    ∃ b : Byte, exec (.rdIo a) s = .next { s with response := some b, ioDraws := s.ioDraws + 1 })

/-! ## Writes of the base region table -/

/-- R141, R143, R149: WR_ROM_NOP, WR_XRAM_NOP and WR_UNUSABLE complete and change nothing; where each decodes. -/
def Obligations.NoOperationWrites : Prop :=
  (∀ (a : Addr) (v : Byte), (within a 0x0000 0x7FFF → writesAs .none a v (.wrRomNop a v) ∧
      writesAs .mbc2 a v (.wrRomNop a v)) ∧
    (within a 0x6000 0x7FFF → writesAs .mbc3 a v (.wrRomNop a v)) ∧
    (within a 0xA000 0xBFFF → writesAs .none a v (.wrXramNop a v) ∧ writesAs .mbc2 a v (.wrXramNop a v))) ∧
  (∀ (k : Kind) (a : Addr) (v : Byte), within a 0xFEA0 0xFEFF → writesAs k a v (.wrUnusable a v)) ∧
  (∀ (s : State) (a : Addr) (v : Byte), exec (.wrRomNop a v) s = .next s ∧ exec (.wrXramNop a v) s = .next s ∧
    exec (.wrUnusable a v) s = .next s)

/-- R142, R144, R146, R148: WR_VRAM, WR_WRAM0, WR_WRAMX and WR_OAM store the byte at the mapped index and change
nothing else; WR_VRAM and WR_WRAMX raise BOUNDS at or beyond the buffer's length. -/
def Obligations.BufferWritesStoreTheByte : Prop :=
  (∀ (k : Kind) (a : Addr) (v : Byte), (within a 0x8000 0x9FFF → writesAs k a v (.wrVram a v)) ∧
    (within a 0xC000 0xCFFF → writesAs k a v (.wrWram0 a v)) ∧
    (within a 0xD000 0xDFFF → writesAs k a v (.wrWramx a v)) ∧
    (within a 0xFE00 0xFE9F → writesAs k a v (.wrOam a v))) ∧
  (∀ (s : State) (a : Addr) (v : Byte), within a 0x8000 0x9FFF →
    if s.vramBankOffset + (a.toNat - 0x8000) < (if s.cfg.enhanced then 0x4000 else 0x2000) then
      storesAt (exec (.wrVram a v) s) s .vram (s.vramBankOffset + (a.toNat - 0x8000)) v
    else exec (.wrVram a v) s = .fault (.bounds .vram (s.vramBankOffset + (a.toNat - 0x8000)))) ∧
  (∀ (s : State) (a : Addr) (v : Byte), within a 0xC000 0xCFFF →
    storesAt (exec (.wrWram0 a v) s) s .wram (a.toNat - 0xC000) v) ∧
  (∀ (s : State) (a : Addr) (v : Byte), within a 0xD000 0xDFFF →
    if s.wramBankOffset + (a.toNat - 0xD000) < (if s.cfg.enhanced then 0x8000 else 0x2000) then
      storesAt (exec (.wrWramx a v) s) s .wram (s.wramBankOffset + (a.toNat - 0xD000)) v
    else exec (.wrWramx a v) s = .fault (.bounds .wram (s.wramBankOffset + (a.toNat - 0xD000)))) ∧
  (∀ (s : State) (a : Addr) (v : Byte), within a 0xFE00 0xFE9F →
    storesAt (exec (.wrOam a v) s) s .oam (a.toNat - 0xFE00) v)

/-- R145, R147: an echo write completes; under BASE it is the base write of the target and changes nothing, under
FULL it is the controller's write of the target: the enable write of MBC1 or MBC3. -/
def Obligations.EchoWritesReenterAsConfigured : Prop :=
  (∀ (k : Kind) (a : Addr) (v : Byte), within a 0xE000 0xFDFF → writesAs k a v (.wrEcho a v)) ∧
  (∀ (s : State) (a : Addr) (v : Byte), within a 0xE000 0xFDFF → s.cfg.echoReentry = .base →
    exec (.wrEcho a v) s = baseWrite (a - 0xE000) v s ∧ exec (.wrEcho a v) s = .next s) ∧
  (∀ (s : State) (a : Addr) (v : Byte), within a 0xE000 0xFDFF → s.cfg.echoReentry = .full →
    exec (.wrEcho a v) s = busWrite (a - 0xE000) v s ∧
    exec (.wrEcho a v) s = .next { s with
      ramEnabled := if (s.cfg.kind = .mbc1 ∨ s.cfg.kind = .mbc3) ∧ 1 ≤ s.cfg.ramBankCount
        then decide (v.toNat % 16 = 0xA) else s.ramEnabled,
      rtcEnabled := if s.cfg.kind = .mbc3 then decide (v.toNat % 16 = 0xA) else s.rtcEnabled })

/-- R151: WR_IO records the event on the I/O port and changes nothing else. -/
def Obligations.IoWriteRecordsTheEvent : Prop :=
  (∀ (k : Kind) (a : Addr) (v : Byte), within a 0xFF00 0xFFFF → writesAs k a v (.wrIo a v)) ∧
  (∀ (s : State) (a : Addr) (v : Byte),
    exec (.wrIo a v) s = .next { s with ioEvents := s.ioEvents ++ [⟨a, v⟩] })

/-! ## The controller base -/

/-- R171, R290: RD_XRAM outside the RTC path: 0xFF while the gate is closed, without a bounds check; through the
open gate the mapped byte, or BOUNDS at or beyond `CART_RAM_SIZE`. The gate of MBC2 never opens. -/
def Obligations.CartRamReadIsGated : Prop :=
  (∀ (k : Kind) (a : Addr), k ≠ .none → within a 0xA000 0xBFFF → readsAs k a (.rdXram a)) ∧
  (∀ (s : State) (a : Addr), within a 0xA000 0xBFFF → s.cfg.kind ≠ .none →
    (s.cfg.kind ≠ .mbc3 ∨ s.cfg.rtcReadPath = .cartRam ∨ s.ramBankIndex ≠ -1) →
    exec (.rdXram a) s =
      if s.ramEnabled = false then .next { s with response := some 0xFF }
      else if s.ramBankOffset + (a.toNat - 0xA000) < s.cfg.cartRamSize then
        .next { s with response := some (s.cartRam.read (s.ramBankOffset + (a.toNat - 0xA000))) }
      else .fault (.bounds .cartRam (s.ramBankOffset + (a.toNat - 0xA000)))) ∧
  (∀ s : State, s.Inv → s.cfg.kind = .mbc2 → s.ramEnabled = false)

/-- R240: under `RTC_READ_PATH = RTC_FILE` an MBC3 read in RTC mode returns the selected RTC byte whatever the
gates are, or raises RTC_UNRESOLVED; under `CART_RAM`, and outside RTC mode, it is the gated cartridge-RAM read at
the last selected RAM bank. -/
def Obligations.RtcModeReadFollowsTheReadPath : Prop :=
  (∀ (s : State) (a : Addr) (i : Fin 4), within a 0xA000 0xBFFF → s.cfg.kind = .mbc3 →
    s.cfg.rtcReadPath = .rtcFile → s.ramBankIndex = -1 → rtcIndex s.cfg.rtcIndexMap s.rtcSelect = some i →
    exec (.rdXram a) s = .next { s with response := some (s.rtc.get i) }) ∧
  (∀ (s : State) (a : Addr), within a 0xA000 0xBFFF → s.cfg.kind = .mbc3 →
    s.cfg.rtcReadPath = .rtcFile → s.ramBankIndex = -1 → rtcIndex s.cfg.rtcIndexMap s.rtcSelect = none →
    exec (.rdXram a) s = .fault (.rtcUnresolved s.rtcSelect)) ∧
  (∀ (s : State) (a : Addr), within a 0xA000 0xBFFF → s.cfg.kind = .mbc3 →
    (s.cfg.rtcReadPath = .cartRam ∨ s.ramBankIndex ≠ -1) →
    exec (.rdXram a) s =
      if s.ramEnabled = false then .next { s with response := some 0xFF }
      else if s.ramBankOffset + (a.toNat - 0xA000) < s.cfg.cartRamSize then
        .next { s with response := some (s.cartRam.read (s.ramBankOffset + (a.toNat - 0xA000))) }
      else .fault (.bounds .cartRam (s.ramBankOffset + (a.toNat - 0xA000))))

/-- R172, R176: a read outside 0xA000–0xBFFF is the base read of the address, and the same operation under every
kind. -/
def Obligations.ReadsFallThroughForEveryKind : Prop :=
  (∀ (s : State) (a : Addr), ¬ within a 0xA000 0xBFFF → busRead a s = baseRead a s) ∧
  (∀ (j k : Kind) (a : Addr), ¬ within a 0xA000 0xBFFF →
    decode j (requestWord 0b00 a 0) = decode k (requestWord 0b00 a 0))

/-- R175, R196, R235: WR_MBC1_XRAM, and WR_MBC3_XRAM outside RTC mode: discarded while the gate is closed; through
the open gate the byte is stored at the mapped index, or BOUNDS at or beyond `CART_RAM_SIZE`. -/
def Obligations.CartRamWriteIsGated : Prop :=
  (∀ (a : Addr) (v : Byte), within a 0xA000 0xBFFF →
    writesAs .mbc1 a v (.wrMbc1Xram a v) ∧ writesAs .mbc3 a v (.wrMbc3Xram a v)) ∧
  (∀ (s : State) (a : Addr) (v : Byte), within a 0xA000 0xBFFF → s.cfg.kind = .mbc1 →
    if s.ramEnabled = false then exec (.wrMbc1Xram a v) s = .next s
    else if s.ramBankOffset + (a.toNat - 0xA000) < s.cfg.cartRamSize then
      storesAt (exec (.wrMbc1Xram a v) s) s .cartRam (s.ramBankOffset + (a.toNat - 0xA000)) v
    else exec (.wrMbc1Xram a v) s = .fault (.bounds .cartRam (s.ramBankOffset + (a.toNat - 0xA000)))) ∧
  (∀ (s : State) (a : Addr) (v : Byte), within a 0xA000 0xBFFF → s.cfg.kind = .mbc3 → s.ramBankIndex ≠ -1 →
    if s.ramEnabled = false then exec (.wrMbc3Xram a v) s = .next s
    else if s.ramBankOffset + (a.toNat - 0xA000) < s.cfg.cartRamSize then
      storesAt (exec (.wrMbc3Xram a v) s) s .cartRam (s.ramBankOffset + (a.toNat - 0xA000)) v
    else exec (.wrMbc3Xram a v) s = .fault (.bounds .cartRam (s.ramBankOffset + (a.toNat - 0xA000))))

/-- R178: while the gate is closed no bus read or write changes cartridge RAM, and none depends on it: with any
other contents the step ends the same, its next state different in those contents only. -/
def Obligations.ClosedGateIsolatesCartRam : Prop :=
  ∀ (s : State) (m : Memory), s.ramEnabled = false → busRequestPending s →
    (∀ t, step s = .next t → t.cartRam = s.cartRam ∧ step { s with cartRam := m } = .next { t with cartRam := m }) ∧
    (∀ f, step s = .fault f → step { s with cartRam := m } = .fault f) ∧
    (∀ x, step s = .refused x → step { s with cartRam := m } = .refused x)

/-! ## MBC1 -/

/-- R191: WR_MBC1_RAMEN sets the gate from the low nibble if the cartridge declares a RAM bank, and changes
nothing else. -/
def Obligations.Mbc1RamEnableWrite : Prop :=
  (∀ (a : Addr) (v : Byte), within a 0x0000 0x1FFF → writesAs .mbc1 a v (.wrMbc1Ramen a v)) ∧
  (∀ (s : State) (a : Addr) (v : Byte), exec (.wrMbc1Ramen a v) s = .next { s with
    ramEnabled := if 1 ≤ s.cfg.ramBankCount then decide (v.toNat % 16 = 0xA) else s.ramEnabled })

/-- R193: WR_MBC1_ROMLO keeps bits 6:5 of the selector, takes bits 4:0 from the byte, and maps the aliased bank.
R192: `Alias1(n)` is n + 1 when the low five bits of n are zero and n otherwise, so it is in 0x01..0x7F and its low
five bits are never zero. -/
def Obligations.Mbc1RomLowWrite : Prop :=
  (∀ (a : Addr) (v : Byte), within a 0x2000 0x3FFF → writesAs .mbc1 a v (.wrMbc1Romlo a v)) ∧
  (∀ (s : State) (a : Addr) (v : Byte), ∃ n : BitVec 7,
    n.toNat = s.romBank.toNat / 32 * 32 + v.toNat % 32 ∧
    exec (.wrMbc1Romlo a v) s = .next { s with
      romBank := n, romBankOffset := (if n.toNat % 32 = 0 then n.toNat + 1 else n.toNat) * 0x4000 }) ∧
  (∀ n : BitVec 7, (alias1 n).toNat = (if n.toNat % 32 = 0 then n.toNat + 1 else n.toNat) ∧
    0x01 ≤ (alias1 n).toNat ∧ (alias1 n).toNat ≤ 0x7F ∧ (alias1 n).toNat % 32 ≠ 0)

/-- R194: WR_MBC1_BANKHI sets the RAM bank in RAM-banking mode and bits 6:5 of the selector in ROM-banking mode,
and changes nothing else. -/
def Obligations.Mbc1BankHighWrite : Prop :=
  (∀ (a : Addr) (v : Byte), within a 0x4000 0x5FFF → writesAs .mbc1 a v (.wrMbc1Bankhi a v)) ∧
  (∀ (s : State) (a : Addr) (v : Byte), s.modeSelect = false →
    exec (.wrMbc1Bankhi a v) s = .next { s with ramBankOffset := v.toNat % 4 * 0x2000 }) ∧
  (∀ (s : State) (a : Addr) (v : Byte), s.modeSelect = true → ∃ n : BitVec 7,
    n.toNat = v.toNat % 4 * 32 + s.romBank.toNat % 32 ∧
    exec (.wrMbc1Bankhi a v) s = .next { s with
      romBank := n, romBankOffset := (if n.toNat % 32 = 0 then n.toNat + 1 else n.toNat) * 0x4000 })

/-- R197, R198: WR_MBC1_MODE sets the mode from bit 0 if the cartridge declares exactly 3 RAM banks, and changes
nothing else. -/
def Obligations.Mbc1ModeWrite : Prop :=
  (∀ (a : Addr) (v : Byte), within a 0x6000 0x7FFF → writesAs .mbc1 a v (.wrMbc1Mode a v)) ∧
  (∀ (s : State) (a : Addr) (v : Byte), exec (.wrMbc1Mode a v) s = .next { s with
    modeSelect := if s.cfg.ramBankCount = 3 then decide (v.toNat % 2 = 1) else s.modeSelect })

/-- One selector write of R195: low bits (`false`) or high bits (`true`). -/
def Sys2Proof.Claims.selectorWrite (n : BitVec 7) (w : Bool × Byte) : BitVec 7 :=
  if w.1 then withHighBits n w.2 else withLowBits n w.2

/-- R195: storing the unaliased selector and storing the aliased one map the same bank after every sequence of
selector writes. -/
def Obligations.AliasedAndUnaliasedSelectorsAgree : Prop :=
  ∀ (n : BitVec 7) (ws : List (Bool × Byte)),
    mbc1RomOffset (ws.foldl selectorWrite n)
      = (ws.foldl (fun m w => alias1 (selectorWrite m w)) (alias1 n)).toNat * 0x4000

/-! ## MBC2 -/

/-- R221, R222, R223: every MBC2 write is decoded as under NONE; in a state of the invariant every MBC2 read of
0xA000–0xBFFF returns 0xFF; and no step changes the three constants. -/
def Obligations.Mbc2StubBehaviour : Prop :=
  (∀ (a : Addr) (v : Byte), decode .mbc2 (requestWord 0b01 a v) = decode .none (requestWord 0b01 a v)) ∧
  (∀ (s : State) (a : Addr), s.Inv → s.cfg.kind = .mbc2 → within a 0xA000 0xBFFF →
    readsAs .mbc2 a (.rdXram a) ∧ exec (.rdXram a) s = .next { s with response := some 0xFF }) ∧
  (∀ s t : State, s.cfg.kind = .mbc2 → step s = .next t →
    t.ramEnabled = s.ramEnabled ∧ t.ramBankOffset = s.ramBankOffset ∧ t.romBankOffset = s.romBankOffset)

/-! ## MBC3 -/

/-- R231: WR_MBC3_ENABLE sets `rtc_enabled` from the low nibble always, and `ram_enabled` likewise if the
cartridge declares a RAM bank. -/
def Obligations.Mbc3EnableWrite : Prop :=
  (∀ (a : Addr) (v : Byte), within a 0x0000 0x1FFF → writesAs .mbc3 a v (.wrMbc3Enable a v)) ∧
  (∀ (s : State) (a : Addr) (v : Byte), exec (.wrMbc3Enable a v) s = .next { s with
    ramEnabled := if 1 ≤ s.cfg.ramBankCount then decide (v.toNat % 16 = 0xA) else s.ramEnabled,
    rtcEnabled := decide (v.toNat % 16 = 0xA) })

/-- R232: WR_MBC3_ROMB maps the bank of the low seven bits, floored at 1. -/
def Obligations.Mbc3RomBankWrite : Prop :=
  (∀ (a : Addr) (v : Byte), within a 0x2000 0x3FFF → writesAs .mbc3 a v (.wrMbc3Romb a v)) ∧
  (∀ (s : State) (a : Addr) (v : Byte), exec (.wrMbc3Romb a v) s = .next { s with
    romBankOffset := (if v.toNat % 128 = 0 then 1 else v.toNat % 128) * 0x4000 })

/-- R233: WR_MBC3_RAMB_RTC: 0x08–0x0C while `rtc_enabled` enters RTC mode, 0x00–0x03 selects a RAM bank, every
other byte is ignored. -/
def Obligations.Mbc3SelectWrite : Prop :=
  (∀ (a : Addr) (v : Byte), within a 0x4000 0x5FFF → writesAs .mbc3 a v (.wrMbc3RambRtc a v)) ∧
  (∀ (s : State) (a : Addr) (v : Byte), exec (.wrMbc3RambRtc a v) s = .next (
    if 0x08 ≤ v.toNat ∧ v.toNat ≤ 0x0C ∧ s.rtcEnabled = true then
      { s with ramBankIndex := -1, rtcSelect := some v }
    else if v.toNat ≤ 0x03 then
      { s with ramBankIndex := (v.toNat : Int), ramBankOffset := v.toNat * 0x2000 }
    else s))

/-- R235, R236, R238: WR_MBC3_XRAM in RTC mode writes the RTC byte that `RTC_INDEX_MAP` gives for the selected
value, whatever the address and the gates are, or raises RTC_UNRESOLVED; the map's five entries are those of
0x08 to 0x0C. -/
def Obligations.Mbc3RtcWrite : Prop :=
  (∀ (s : State) (a : Addr) (v : Byte) (i : Fin 4), within a 0xA000 0xBFFF → s.ramBankIndex = -1 →
    rtcIndex s.cfg.rtcIndexMap s.rtcSelect = some i →
    ∃ r : RtcFile, exec (.wrMbc3Xram a v) s = .next { s with rtc := r } ∧ r.get i = v ∧
      ∀ j, j ≠ i → r.get j = s.rtc.get j) ∧
  (∀ (s : State) (a : Addr) (v : Byte), within a 0xA000 0xBFFF → s.ramBankIndex = -1 →
    rtcIndex s.cfg.rtcIndexMap s.rtcSelect = none →
    exec (.wrMbc3Xram a v) s = .fault (.rtcUnresolved s.rtcSelect)) ∧
  (∀ m : RtcIndexMap, rtcIndex m (some 0x08) = m.r08 ∧ rtcIndex m (some 0x09) = m.r09 ∧
    rtcIndex m (some 0x0A) = m.r0A ∧ rtcIndex m (some 0x0B) = m.r0B ∧ rtcIndex m (some 0x0C) = m.r0C)

/-- R46, R53: with `RTC_READ_PATH = CART_RAM` the RTC file is never observed: with any other RTC bytes a step ends
the same, its next state different in the RTC file only. -/
def Obligations.RtcFileIsNotObserved : Prop :=
  ∀ (s : State) (r : RtcFile), s.cfg.rtcReadPath = .cartRam →
    (∀ t, step s = .next t → ∃ r', step { s with rtc := r } = .next { t with rtc := r' }) ∧
    (∀ f, step s = .fault f → step { s with rtc := r } = .fault f) ∧
    (∀ x, step s = .refused x → step { s with rtc := r } = .refused x)

/-! ## Persistence -/

/-- R260, R261: under NONE, SAVE and LOAD report NO_PERSISTENCE and change nothing else, whatever the battery, the
sink and the source are. -/
def Obligations.BaseSaveAndLoadReportNoPersistence : Prop :=
  decode .none (requestWord 0b10 0 0) = .ok .saveBase ∧ decode .none (requestWord 0b11 0 0) = .ok .loadBase ∧
  (∀ s : State, exec .saveBase s = .next { s with errors := s.errors ++ [.noPersistence] } ∧
    exec .loadBase s = .next { s with errors := s.errors ++ [.noPersistence] })

/-- R262, R264: SAVE under a controller puts the `CART_RAM_SIZE` bytes of cartridge RAM in index order, whatever
the gate is, and changes nothing else; without a battery it reports NO_PERSISTENCE and puts nothing. -/
def Obligations.SaveDumpsCartRam : Prop :=
  (∀ k : Kind, k ≠ .none → decode k (requestWord 0b10 0 0) = .ok .saveMbc) ∧
  (∀ s : State, s.cfg.kind ≠ .none → s.cfg.hasBattery = true →
    ∃ dump : List Byte, dump.length = s.cfg.cartRamSize ∧
      (∀ i, i < s.cfg.cartRamSize → dump[i]? = some (s.cartRam.read i)) ∧
      exec .saveMbc s = .next { s with sink := s.sink ++ dump }) ∧
  (∀ s : State, s.cfg.hasBattery = false →
    exec .saveMbc s = .next { s with errors := s.errors ++ [.noPersistence] })

/-- R263, R290: LOAD under a controller: without a battery NO_PERSISTENCE, from an invalid source PREMATURE_END,
both with the buffer unchanged; else the buffer holds the source's first `CART_RAM_SIZE` bytes and zero behind
them, and a short source reports DATA_INTEGRITY. -/
def Obligations.LoadFillsCartRam : Prop :=
  (∀ k : Kind, k ≠ .none → decode k (requestWord 0b11 0 0) = .ok .loadMbc) ∧
  (∀ s : State, s.cfg.hasBattery = false →
    exec .loadMbc s = .next { s with errors := s.errors ++ [.noPersistence] }) ∧
  (∀ s : State, s.cfg.hasBattery = true → s.source.valid = false →
    exec .loadMbc s = .next { s with errors := s.errors ++ [.prematureEnd] }) ∧
  (∀ s : State, s.cfg.kind ≠ .none → s.cfg.hasBattery = true → s.source.valid = true →
    ∃ m : Memory, (∀ i, i < s.cfg.cartRamSize → m.read i = s.source.bytes.getD i 0x00) ∧
      exec .loadMbc s = .next { s with cartRam := m, errors := s.errors ++
        (if s.source.bytes.length < s.cfg.cartRamSize then [.dataIntegrity] else []) })

/-- R268: with a battery, a LOAD from a valid source that holds exactly the bytes a SAVE put gives cartridge RAM
its value at the SAVE and adds no diagnostic, whatever happened in between; without one, both report and leave
the buffer unchanged. -/
def Obligations.SaveLoadRoundTrip : Prop :=
  (∀ s : State, s.cfg.kind ≠ .none → s.cfg.hasBattery = true → s.BufferOk .cartRam →
    ∃ dump : List Byte, exec .saveMbc s = .next { s with sink := s.sink ++ dump } ∧
      ∀ u : State, u.cfg = s.cfg → u.source = ⟨true, dump⟩ →
        exec .loadMbc u = .next { u with cartRam := s.cartRam }) ∧
  (∀ s : State, s.cfg.hasBattery = false →
    exec .saveMbc s = .next { s with errors := s.errors ++ [.noPersistence] } ∧
    exec .loadMbc s = .next { s with errors := s.errors ++ [.noPersistence] })

/-! ## Construction -/

/-- The constraints of R317. -/
def Sys2Proof.Claims.constraints (k : Kind) (p : Params) (init : InitContents) : Prop :=
  let vramSize := if p.enhanced then 0x4000 else 0x2000
  let wramSize := if p.enhanced then 0x8000 else 0x2000
  (p.wramBankOffsetInit % 0x1000 = 0 ∧ p.wramBankOffsetInit ≤ wramSize - 0x1000) ∧
  (p.vramBankOffsetInit % 0x2000 = 0 ∧ p.vramBankOffsetInit ≤ vramSize - 0x2000) ∧
  init.vram.length = vramSize ∧ init.wram.length = wramSize ∧ init.oam.length = 160 ∧
  (k ≠ .none → init.cartRam.length = p.cartRamSize)

/-- R310 to R313: a construction that meets the constraints yields a block with every register its kind has at its
construction value, the buffers at their launch contents, and UNSUPPORTED reported for MBC2. -/
def Obligations.ConstructionValues : Prop :=
  ∀ (k : Kind) (p : Params) (init : InitContents), constraints k p init →
    ∃ s : State, construct (.known k) p init = .next s ∧
      s.cfg = ⟨p, k⟩ ∧
      s.wramBankOffset = p.wramBankOffsetInit ∧ s.vramBankOffset = p.vramBankOffsetInit ∧
      s.romBankOffset = 0x4000 ∧
      (k ≠ .none → s.ramBankOffset = 0x0000 ∧ s.ramEnabled = false) ∧
      (k = .mbc1 → s.romBank = 0x01 ∧ s.modeSelect = false) ∧
      (k = .mbc3 → s.rtcEnabled = false ∧ s.ramBankIndex = 0 ∧ s.rtcSelect = none) ∧
      s.errors = (if k = .mbc2 then [.unsupported] else []) ∧ s.fault = none ∧ s.refused = false ∧
      (∀ i, i < init.vram.length → init.vram[i]? = some (s.vram.read i)) ∧
      (∀ i, i < init.wram.length → init.wram[i]? = some (s.wram.read i)) ∧
      (∀ i, i < init.oam.length → init.oam[i]? = some (s.oam.read i)) ∧
      (k ≠ .none → ∀ i, i < init.cartRam.length → init.cartRam[i]? = some (s.cartRam.read i)) ∧
      (k = .mbc3 → s.rtc = init.rtc)

/-- Another kind is refused with UNSUPPORTED_KIND, and of the four kinds exactly the constructions that break a
constraint are refused with BAD_CONFIG (R317). That another kind gets UNSUPPORTED_KIND also where it breaks a
constraint is the model's choice (DESIGN CHOICE, log entry 14): R113, R289 and R317 do not order the two. -/
def Obligations.ConstructionRefusals : Prop :=
  (∀ (name : String) (p : Params) (init : InitContents),
    construct (.other name) p init = .refused (.unsupportedKind name)) ∧
  (∀ (k : Kind) (p : Params) (init : InitContents),
    construct (.known k) p init = .refused .badConfig ↔ ¬ constraints k p init)

/-- Every block that construction yields meets the invariant. -/
def Obligations.ConstructionEstablishesInvariant : Prop :=
  ∀ (k : KindName) (p : Params) (init : InitContents) (s : State), construct k p init = .next s → s.Inv

/-- State.reset is a block that construction yields: of kind MBC1, with the standard parameters and zero contents
(DESIGN CHOICE, log entries 1 and 2). -/
def Obligations.ResetIsAConstruction : Prop :=
  ∃ init : InitContents, construct (.known .mbc1) Params.standard init = .next State.reset

/-! ## Whole-machine rules -/

/-- The invariant holds at reset. -/
def Obligations.InvariantAtReset : Prop := State.reset.Inv

/-- Every step keeps the invariant: the buffers' forms, the ranges and multiples of the bank offsets (R37 to R40),
the MBC1 mapping (R44), the MBC3 index and select rules (R237, R239), the constants of NONE and MBC2 (R223) and
the one report of UNSUPPORTED (R283). -/
def Obligations.StepKeepsInvariant : Prop :=
  ∀ s t : State, s.Inv → step s = .next t → t.Inv

/-- R37, R38, R113: no step changes the configuration, `wram_bank_offset` or `vram_bank_offset`. -/
def Obligations.ConfigurationIsFixed : Prop :=
  ∀ s t : State, step s = .next t →
    t.cfg = s.cfg ∧ t.wramBankOffset = s.wramBankOffset ∧ t.vramBankOffset = s.vramBankOffset

/-- R52: under BASE a bank-controller register changes only by a write to its window under its kind, and the
gate fields only where R191 and R231 allow it. -/
def Obligations.RegistersChangeOnlyThroughTheirWindows : Prop :=
  ∀ s t : State, s.cfg.echoReentry = .base → step s = .next t →
    (t.ramEnabled ≠ s.ramEnabled →
      (s.cfg.kind = .mbc1 ∨ s.cfg.kind = .mbc3) ∧ 1 ≤ s.cfg.ramBankCount ∧ writePending s 0x0000 0x1FFF) ∧
    (t.rtcEnabled ≠ s.rtcEnabled → s.cfg.kind = .mbc3 ∧ writePending s 0x0000 0x1FFF) ∧
    (t.romBank ≠ s.romBank → s.cfg.kind = .mbc1 ∧
      (writePending s 0x2000 0x3FFF ∨ (s.modeSelect = true ∧ writePending s 0x4000 0x5FFF))) ∧
    (t.romBankOffset ≠ s.romBankOffset →
      (s.cfg.kind = .mbc1 ∧
        (writePending s 0x2000 0x3FFF ∨ (s.modeSelect = true ∧ writePending s 0x4000 0x5FFF))) ∨
      (s.cfg.kind = .mbc3 ∧ writePending s 0x2000 0x3FFF)) ∧
    (t.ramBankOffset ≠ s.ramBankOffset →
      (s.cfg.kind = .mbc1 ∧ s.modeSelect = false ∨ s.cfg.kind = .mbc3) ∧ writePending s 0x4000 0x5FFF) ∧
    (t.modeSelect ≠ s.modeSelect →
      s.cfg.kind = .mbc1 ∧ s.cfg.ramBankCount = 3 ∧ writePending s 0x6000 0x7FFF) ∧
    (t.ramBankIndex ≠ s.ramBankIndex ∨ t.rtcSelect ≠ s.rtcSelect →
      s.cfg.kind = .mbc3 ∧ writePending s 0x4000 0x5FFF) ∧
    (t.rtc ≠ s.rtc → s.cfg.kind = .mbc3 ∧ s.ramBankIndex = -1 ∧ writePending s 0xA000 0xBFFF)

/-- R82: a READ returns a byte and changes no state of the block; outside the I/O range not even the model's draw
counter, and the same read right after it returns the same byte. -/
def Obligations.ReadsChangeNoState : Prop :=
  (∀ (s t : State) (r : Request) (rest : List Request), s.requests = r :: rest → opField r.word = 0b00 →
    step s = .next t →
    ∃ b : Byte, ∃ n : Nat,
      t = { s with requests := rest, source := r.source, sink := r.sink, response := some b, ioDraws := n } ∧
      ((addrField r.word).toNat < 0xFF00 → n = s.ioDraws)) ∧
  (∀ (s t : State) (r q : Request) (rest : List Request), s.requests = r :: q :: rest → opField r.word = 0b00 →
    (addrField r.word).toNat < 0xFF00 → q.word = r.word → step s = .next t →
    ∃ u, step t = .next u ∧ u.response = t.response)

/-- R105: WRITE, SAVE and LOAD return nothing. -/
def Obligations.OnlyReadsRespond : Prop :=
  ∀ (s t : State) (r : Request) (rest : List Request), s.requests = r :: rest → step s = .next t →
    (t.response ≠ none ↔ opField r.word = 0b00)

/-- R280, R281, R283, R290: a step reports at most one diagnostic, appended to the log; only SAVE and LOAD report,
SAVE only NO_PERSISTENCE, and no step reports UNSUPPORTED. -/
def Obligations.DiagnosticsAreAppendedBySaveAndLoadOnly : Prop :=
  ∀ s t : State, step s = .next t →
    t.errors = s.errors ∨
    ∃ e, t.errors = s.errors ++ [e] ∧ e ≠ .unsupported ∧
      ∃ r rest, s.requests = r :: rest ∧
        ((opField r.word = 0b10 ∧ e = .noPersistence) ∨ opField r.word = 0b11)

/-- R110, R173: the decode of a READ carried out is the spec's `BusRead`, of a WRITE its `BusWrite`. -/
def Obligations.RequestsAreTheBusAccesses : Prop :=
  (∀ (s : State) (a : Addr) (i : Instr), decode s.cfg.kind (requestWord 0b00 a 0) = .ok i →
    exec i s = busRead a s) ∧
  (∀ (s : State) (a : Addr) (v : Byte) (i : Instr), decode s.cfg.kind (requestWord 0b01 a v) = .ok i →
    exec i s = busWrite a v s) ∧
  (∀ (s : State) (a : Addr), busRead a s = if s.cfg.kind = .none then baseRead a s else ctlRead a s)

/-- R76, R284, R286 to R288: in a state of the invariant that is not yet stuck, a step's fault is BOUNDS of
cartridge RAM through the open gate, ROM_UNMAPPED of an offset below 0x200000, or RTC_UNRESOLVED of the selected
value. -/
def Obligations.FaultsOfTheInvariant : Prop :=
  ∀ (s : State) (f : Fault), s.Inv → s.fault = none → step s = .fault f →
    (∃ i, f = .bounds .cartRam i ∧ s.ramEnabled = true ∧ s.cfg.cartRamSize ≤ i) ∨
    (∃ off, f = .romUnmapped off ∧ off < 0x200000 ∧ romAnswer s.cfg.rom off = none) ∨
    (∃ v, f = .rtcUnresolved (some v) ∧ s.rtcSelect = some v ∧ 0x08 ≤ v.toNat ∧ v.toNat ≤ 0x0C ∧
      s.cfg.kind = .mbc3 ∧ rtcIndex s.cfg.rtcIndexMap (some v) = none)

/-- The storage byte a bus address reaches for a read and a write alike (R75, R77, R78): none for ROM, echo,
unusable and I/O addresses, behind a closed gate, in RTC mode, and for a kind with no cartridge-RAM write. -/
def Sys2Proof.Claims.storagePlace (s : State) (a : Addr) : Option (Buf × Nat) :=
  if a.toNat < 0x8000 then none
  else if a.toNat ≤ 0x9FFF then some (.vram, s.vramBankOffset + (a.toNat - 0x8000))
  else if a.toNat ≤ 0xBFFF then
    if s.ramEnabled = true ∧ (s.cfg.kind = .mbc1 ∨ s.cfg.kind = .mbc3 ∧ s.ramBankIndex ≠ -1) then
      some (.cartRam, s.ramBankOffset + (a.toNat - 0xA000))
    else none
  else if a.toNat ≤ 0xCFFF then some (.wram, a.toNat - 0xC000)
  else if a.toNat ≤ 0xDFFF then some (.wram, s.wramBankOffset + (a.toNat - 0xD000))
  else if a.toNat ≤ 0xFDFF then none
  else if a.toNat ≤ 0xFE9F then some (.oam, a.toNat - 0xFE00)
  else none

/-- R84, R85: after a write that goes on, a read of any address that reaches the written storage byte, aliases
among them, returns the written value, and a read of any address that reaches another returns what it returned
before. -/
def Obligations.StorageReadSeesTheLastWrite : Prop :=
  ∀ (s t w : State) (a b : Addr) (v : Byte) (p q : Buf × Nat),
    storagePlace s a = some p → storagePlace s b = some q → busWrite a v s = .next t → busRead b s = .next w →
    ∃ u, busRead b t = .next u ∧ u.response = if q = p then some v else w.response

/-- R320, R321: the read right after a bank switch reads the new bank, under MBC1 and MBC3. -/
def Obligations.BankSwitchIsSeenByTheNextRead : Prop :=
  (∀ (s : State) (a : Addr) (v x : Byte) (c : Addr), within a 0x4000 0x7FFF →
    romAnswer s.cfg.rom ((if v.toNat % 128 = 0 then 1 else v.toNat % 128) * 0x4000 + (a.toNat - 0x4000)) = some x →
    ∃ t, exec (.wrMbc3Romb c v) s = .next t ∧ exec (.rdRomx a) t = .next { t with response := some x }) ∧
  (∀ (s : State) (a : Addr) (v x : Byte) (c : Addr) (n : Nat), within a 0x4000 0x7FFF →
    n = s.romBank.toNat / 32 * 32 + v.toNat % 32 →
    romAnswer s.cfg.rom ((if n % 32 = 0 then n + 1 else n) * 0x4000 + (a.toNat - 0x4000)) = some x →
    ∃ t, exec (.wrMbc1Romlo c v) s = .next t ∧ exec (.rdRomx a) t = .next { t with response := some x })
end

