-- ==== Sys2Proof/Laws/Memory.lean ====
section
/-! SUPPORT. The laws of a buffer: a byte read after a write, and that every operation keeps the canonical form. -/

namespace Sys2Proof.Machine

theorem Memory.read_nil (i : Nat) : Memory.read [] i = Memory.unlisted := rfl

/-! ## Read after write -/

theorem Memory.read_filter_same (m : Memory) (i : Nat) :
    Memory.read (m.filter (fun c => c.1 != i)) i = Memory.unlisted := by
  induction m with
  | nil => rfl
  | cons c m ih =>
    obtain ⟨k, b⟩ := c
    by_cases h : k = i <;> simp [Memory.read, h, ih]

theorem Memory.read_filter_of_ne (m : Memory) {i j : Nat} (h : j ≠ i) :
    Memory.read (m.filter (fun c => c.1 != i)) j = Memory.read m j := by
  induction m with
  | nil => rfl
  | cons c m ih =>
    obtain ⟨k, b⟩ := c
    by_cases hk : k = i
    · subst hk
      simp [Memory.read, ih, Ne.symm h]
    · simp [Memory.read, hk, ih]

theorem Memory.read_place_same (m : Memory) (i : Nat) (v : Byte) (h : ∀ c ∈ m, c.1 ≠ i) :
    Memory.read (Memory.place m i v) i = v := by
  induction m with
  | nil => simp [Memory.place, Memory.read]
  | cons c m ih =>
    obtain ⟨k, b⟩ := c
    have hk : k ≠ i := h (k, b) (by simp)
    have hm := ih (fun c hc => h c (by simp [hc]))
    unfold Memory.place
    split <;> simp [Memory.read, hk, hm]

theorem Memory.read_place_of_ne (m : Memory) {i j : Nat} (v : Byte) (h : j ≠ i) :
    Memory.read (Memory.place m i v) j = Memory.read m j := by
  induction m with
  | nil => simp [Memory.place, Memory.read, Ne.symm h]
  | cons c m ih =>
    obtain ⟨k, b⟩ := c
    unfold Memory.place
    split <;> simp [Memory.read, Ne.symm h, ih]

/-- What every byte of a buffer is after a write, for any buffer. -/
theorem Memory.read_write (m : Memory) (i j : Nat) (v : Byte) :
    (m.write i v).read j = if j = i then v else m.read j := by
  unfold Memory.write
  by_cases h : j = i
  · subst h
    rw [if_pos rfl]
    split
    · rename_i hv
      rw [hv, Memory.read_filter_same]
    · exact Memory.read_place_same _ _ _ (by simp)
  · rw [if_neg h]
    split
    · exact Memory.read_filter_of_ne m h
    · rw [Memory.read_place_of_ne _ _ h, Memory.read_filter_of_ne m h]

/-! ## A buffer made of a list of bytes -/

theorem Memory.fromBytes_cons (start : Nat) (b : Byte) (bs : List Byte) :
    Memory.fromBytes start (b :: bs)
      = if b = Memory.unlisted then Memory.fromBytes (start + 1) bs
        else (start, b) :: Memory.fromBytes (start + 1) bs := rfl

theorem Memory.read_fromBytes (bs : List Byte) (start i : Nat) :
    Memory.read (Memory.fromBytes start bs) i
      = if start ≤ i then bs.getD (i - start) Memory.unlisted else Memory.unlisted := by
  induction bs generalizing start with
  | nil => simp [Memory.fromBytes, Memory.read]
  | cons b bs ih =>
    have hs : Memory.read (Memory.fromBytes start (b :: bs)) i
        = if start = i then b else Memory.read (Memory.fromBytes (start + 1) bs) i := by
      rw [Memory.fromBytes_cons]
      split
      · rename_i hb
        by_cases h : start = i
        · subst h
          rw [if_pos rfl, ih, if_neg (by omega), hb]
        · rw [if_neg h]
      · rfl
    rw [hs, ih]
    by_cases h : start = i
    · subst h
      simp
    · by_cases hle : start ≤ i
      · obtain ⟨d, rfl⟩ : ∃ d, i = start + 1 + d := ⟨i - (start + 1), by omega⟩
        have h1 : start + 1 + d - start = d + 1 := by omega
        simp [h, hle, h1]
      · simp [h, hle, show ¬ start + 1 ≤ i by omega]

/-- Zero contents list nothing. -/
theorem Memory.fromBytes_replicate (n start : Nat) :
    Memory.fromBytes start (List.replicate n Memory.unlisted) = [] := by
  induction n generalizing start with
  | zero => rfl
  | succ n ih => simp [List.replicate_succ, Memory.fromBytes, ih]

/-! ## The canonical form -/

theorem Memory.wf_iff (m : Memory) :
    m.wf = true ↔ m.Pairwise (fun c d => c.1 < d.1) ∧ ∀ c ∈ m, c.2 ≠ Memory.unlisted := by
  simp [Memory.wf]

theorem Memory.fits_iff (m : Memory) (size : Nat) : m.fits size = true ↔ ∀ c ∈ m, c.1 < size := by
  simp [Memory.fits]

theorem Memory.mem_place {m : Memory} {i : Nat} {v : Byte} {c : Host.Cell} :
    c ∈ Memory.place m i v ↔ c = (i, v) ∨ c ∈ m := by
  induction m with
  | nil => simp [Memory.place]
  | cons d m ih =>
    obtain ⟨k, b⟩ := d
    unfold Memory.place
    split
    · simp
    · simp only [List.mem_cons, ih]
      tauto

theorem Memory.place_pairwise {m : Memory} {i : Nat} {v : Byte} (hm : m.Pairwise (fun c d => c.1 < d.1))
    (hi : ∀ c ∈ m, c.1 ≠ i) : (Memory.place m i v).Pairwise (fun c d => c.1 < d.1) := by
  induction m with
  | nil => simp [Memory.place]
  | cons d m ih =>
    obtain ⟨k, b⟩ := d
    rw [List.pairwise_cons] at hm
    unfold Memory.place
    split
    · rename_i h
      refine List.pairwise_cons.2 ⟨fun c hc => ?_, List.pairwise_cons.2 hm⟩
      rcases List.mem_cons.1 hc with rfl | hc
      · exact h
      · exact Nat.lt_trans h (hm.1 c hc)
    · rename_i h
      refine List.pairwise_cons.2 ⟨fun c hc => ?_, ih hm.2 (fun c hc => hi c (List.mem_cons_of_mem _ hc))⟩
      have hk : k ≠ i := hi (k, b) (by simp)
      rcases Memory.mem_place.1 hc with rfl | hc
      · change k < i
        omega
      · exact hm.1 c hc

/-- A write keeps the canonical form. -/
theorem Memory.write_wf {m : Memory} (i : Nat) (v : Byte) (h : m.wf = true) : (m.write i v).wf = true := by
  rw [Memory.wf_iff] at h ⊢
  have hp : (m.filter (fun c => c.1 != i)).Pairwise (fun c d => c.1 < d.1) := h.1.sublist List.filter_sublist
  have hu : ∀ c ∈ m.filter (fun c => c.1 != i), c.2 ≠ Memory.unlisted := fun c hc => h.2 c (List.mem_filter.1 hc).1
  unfold Memory.write
  split
  · exact ⟨hp, hu⟩
  · rename_i hv
    refine ⟨Memory.place_pairwise hp (by simp), fun c hc => ?_⟩
    rcases Memory.mem_place.1 hc with rfl | hc
    · exact hv
    · exact hu c hc

/-- A write inside a buffer keeps it inside. -/
theorem Memory.write_fits {m : Memory} {i size : Nat} (v : Byte) (h : m.fits size = true) (hi : i < size) :
    (m.write i v).fits size = true := by
  rw [Memory.fits_iff] at h ⊢
  intro c hc
  unfold Memory.write at hc
  split at hc
  · exact h c (List.mem_filter.1 hc).1
  · rcases Memory.mem_place.1 hc with rfl | hc
    · exact hi
    · exact h c (List.mem_filter.1 hc).1

theorem Memory.mem_fromBytes {bs : List Byte} {start : Nat} {c : Host.Cell} (h : c ∈ Memory.fromBytes start bs) :
    start ≤ c.1 ∧ c.1 < start + bs.length ∧ c.2 ≠ Memory.unlisted := by
  induction bs generalizing start with
  | nil => cases h
  | cons b bs ih =>
    rw [Memory.fromBytes_cons] at h
    have step : c ∈ Memory.fromBytes (start + 1) bs →
        start ≤ c.1 ∧ c.1 < start + (b :: bs).length ∧ c.2 ≠ Memory.unlisted := fun h => by
      obtain ⟨h1, h2, h3⟩ := ih h
      exact ⟨by omega, by simp only [List.length_cons]; omega, h3⟩
    split at h
    · exact step h
    · rename_i hb
      rcases List.mem_cons.1 h with rfl | h
      · exact ⟨Nat.le_refl _, by simp only [List.length_cons]; omega, hb⟩
      · exact step h

/-- A list of bytes makes a buffer in canonical form. -/
theorem Memory.fromBytes_wf (bs : List Byte) (start : Nat) : (Memory.fromBytes start bs).wf = true := by
  rw [Memory.wf_iff]
  refine ⟨?_, fun c hc => (Memory.mem_fromBytes hc).2.2⟩
  induction bs generalizing start with
  | nil => exact List.Pairwise.nil
  | cons b bs ih =>
    rw [Memory.fromBytes_cons]
    split
    · exact ih _
    · refine List.pairwise_cons.2 ⟨fun c hc => ?_, ih _⟩
      have := (Memory.mem_fromBytes hc).1
      change start < c.1
      omega

theorem Memory.fromBytes_fits {bs : List Byte} {size : Nat} (h : bs.length ≤ size) :
    (Memory.fromBytes 0 bs).fits size = true := by
  rw [Memory.fits_iff]
  intro c hc
  have := (Memory.mem_fromBytes hc).2.1
  omega

theorem Memory.reset_buffers_wf (b : Buf) : (State.reset.buffer b).wf = true := by
  cases b <;> decide

/-! ## Equal bytes, equal buffers -/

theorem Memory.read_of_forall_ne {m : Memory} {i : Nat} (h : ∀ c ∈ m, c.1 ≠ i) : m.read i = Memory.unlisted := by
  induction m with
  | nil => rfl
  | cons c m ih =>
    obtain ⟨k, b⟩ := c
    have hk : k ≠ i := h (k, b) (by simp)
    simp only [Memory.read, if_neg hk]
    exact ih (fun c hc => h c (by simp [hc]))

/-- Two buffers in canonical form that read the same everywhere are the same list. -/
theorem Memory.ext_of_read {m n : Memory} (hm : m.wf = true) (hn : n.wf = true) (h : ∀ i, m.read i = n.read i) :
    m = n := by
  rw [Memory.wf_iff] at hm hn
  induction m generalizing n with
  | nil =>
    cases n with
    | nil => rfl
    | cons d n =>
      have hd := h d.1
      simp only [Memory.read, if_true] at hd
      exact absurd hd.symm (hn.2 d (by simp))
  | cons c m ih =>
    obtain ⟨k, b⟩ := c
    cases n with
    | nil =>
      have hc := h k
      simp only [Memory.read, if_true] at hc
      exact absurd hc (hm.2 (k, b) (by simp))
    | cons d n =>
      obtain ⟨l, e⟩ := d
      obtain ⟨hmp, hmu⟩ := hm
      obtain ⟨hnp, hnu⟩ := hn
      rw [List.pairwise_cons] at hmp hnp
      have hmk : ∀ i, i ≤ k → Memory.read m i = Memory.unlisted := fun i hi =>
        Memory.read_of_forall_ne (fun c hc => by have := hmp.1 c hc; simp only at this; omega)
      have hnl : ∀ i, i ≤ l → Memory.read n i = Memory.unlisted := fun i hi =>
        Memory.read_of_forall_ne (fun c hc => by have := hnp.1 c hc; simp only at this; omega)
      have hb : b ≠ Memory.unlisted := hmu (k, b) (by simp)
      have he : e ≠ Memory.unlisted := hnu (l, e) (by simp)
      have hkl : k = l := by
        rcases Nat.lt_trichotomy k l with hlt | heq | hgt
        · have hk := h k
          simp only [Memory.read, if_true, if_neg (show ¬ l = k by omega), hnl k (by omega)] at hk
          exact absurd hk hb
        · exact heq
        · have hl := h l
          simp only [Memory.read, if_true, if_neg (show ¬ k = l by omega), hmk l (by omega)] at hl
          exact absurd hl.symm he
      subst hkl
      have hbe : b = e := by
        have hk := h k
        simpa only [Memory.read, if_true] using hk
      subst hbe
      congr 1
      refine ih ⟨hmp.2, fun c hc => hmu c (by simp [hc])⟩ ⟨hnp.2, fun c hc => hnu c (by simp [hc])⟩ (fun i => ?_)
      by_cases hi : k = i
      · subst hi
        rw [hmk k (Nat.le_refl _), hnl k (Nat.le_refl _)]
      · have := h i
        simpa only [Memory.read, if_neg hi] using this

/-! ## The dump -/

@[simp] theorem Memory.dump_length (m : Memory) (size : Nat) : (m.dump size).length = size := by
  simp [Memory.dump]

theorem Memory.dump_getD (m : Memory) {size i : Nat} (h : i < size) :
    (m.dump size).getD i Memory.unlisted = m.read i := by
  simp [Memory.dump, List.getD, h]

/-- Filling a buffer from its own dump gives the buffer back. -/
theorem Memory.fromBytes_dump {m : Memory} {size : Nat} (hm : m.wf = true) (hf : m.fits size = true) :
    Memory.fromBytes 0 (m.dump size) = m := by
  refine Memory.ext_of_read (Memory.fromBytes_wf _ _) hm (fun i => ?_)
  rw [Memory.read_fromBytes, if_pos (Nat.zero_le i), Nat.sub_zero]
  by_cases h : i < size
  · exact Memory.dump_getD m h
  · rw [Memory.fits_iff] at hf
    rw [Memory.read_of_forall_ne (fun c hc => by have := hf c hc; omega)]
    simp [List.getD, Memory.dump, h]

end Sys2Proof.Machine
end

