-- ==== Sys2Proof/Laws/State.lean ====
section
/-! SUPPORT. What each named update of State does to each field, one lemma per field per update, so that no proof
unfolds a record update. -/

namespace Sys2Proof.Machine

/-! ## The response -/

@[simp] theorem State.respond_cfg (s : State) (v : Byte) : (s.respond v).cfg = s.cfg := rfl
@[simp] theorem State.respond_vram (s : State) (v : Byte) : (s.respond v).vram = s.vram := rfl
@[simp] theorem State.respond_wram (s : State) (v : Byte) : (s.respond v).wram = s.wram := rfl
@[simp] theorem State.respond_oam (s : State) (v : Byte) : (s.respond v).oam = s.oam := rfl
@[simp] theorem State.respond_cartRam (s : State) (v : Byte) : (s.respond v).cartRam = s.cartRam := rfl
@[simp] theorem State.respond_wramBankOffset (s : State) (v : Byte) : (s.respond v).wramBankOffset = s.wramBankOffset := rfl
@[simp] theorem State.respond_vramBankOffset (s : State) (v : Byte) : (s.respond v).vramBankOffset = s.vramBankOffset := rfl
@[simp] theorem State.respond_romBankOffset (s : State) (v : Byte) : (s.respond v).romBankOffset = s.romBankOffset := rfl
@[simp] theorem State.respond_ramBankOffset (s : State) (v : Byte) : (s.respond v).ramBankOffset = s.ramBankOffset := rfl
@[simp] theorem State.respond_ramEnabled (s : State) (v : Byte) : (s.respond v).ramEnabled = s.ramEnabled := rfl
@[simp] theorem State.respond_romBank (s : State) (v : Byte) : (s.respond v).romBank = s.romBank := rfl
@[simp] theorem State.respond_modeSelect (s : State) (v : Byte) : (s.respond v).modeSelect = s.modeSelect := rfl
@[simp] theorem State.respond_rtcEnabled (s : State) (v : Byte) : (s.respond v).rtcEnabled = s.rtcEnabled := rfl
@[simp] theorem State.respond_rtc (s : State) (v : Byte) : (s.respond v).rtc = s.rtc := rfl
@[simp] theorem State.respond_ramBankIndex (s : State) (v : Byte) : (s.respond v).ramBankIndex = s.ramBankIndex := rfl
@[simp] theorem State.respond_rtcSelect (s : State) (v : Byte) : (s.respond v).rtcSelect = s.rtcSelect := rfl
@[simp] theorem State.respond_errors (s : State) (v : Byte) : (s.respond v).errors = s.errors := rfl
@[simp] theorem State.respond_fault (s : State) (v : Byte) : (s.respond v).fault = s.fault := rfl
@[simp] theorem State.respond_refused (s : State) (v : Byte) : (s.respond v).refused = s.refused := rfl
@[simp] theorem State.respond_ioEvents (s : State) (v : Byte) : (s.respond v).ioEvents = s.ioEvents := rfl
@[simp] theorem State.respond_ioDraws (s : State) (v : Byte) : (s.respond v).ioDraws = s.ioDraws := rfl
@[simp] theorem State.respond_requests (s : State) (v : Byte) : (s.respond v).requests = s.requests := rfl
@[simp] theorem State.respond_source (s : State) (v : Byte) : (s.respond v).source = s.source := rfl
@[simp] theorem State.respond_sink (s : State) (v : Byte) : (s.respond v).sink = s.sink := rfl
@[simp] theorem State.respond_response (s : State) (v : Byte) : (s.respond v).response = some v := rfl

/-! ## The diagnostics -/

@[simp] theorem State.report_cfg (s : State) (e : ErrorKind) : (s.report e).cfg = s.cfg := rfl
@[simp] theorem State.report_vram (s : State) (e : ErrorKind) : (s.report e).vram = s.vram := rfl
@[simp] theorem State.report_wram (s : State) (e : ErrorKind) : (s.report e).wram = s.wram := rfl
@[simp] theorem State.report_oam (s : State) (e : ErrorKind) : (s.report e).oam = s.oam := rfl
@[simp] theorem State.report_cartRam (s : State) (e : ErrorKind) : (s.report e).cartRam = s.cartRam := rfl
@[simp] theorem State.report_wramBankOffset (s : State) (e : ErrorKind) : (s.report e).wramBankOffset = s.wramBankOffset := rfl
@[simp] theorem State.report_vramBankOffset (s : State) (e : ErrorKind) : (s.report e).vramBankOffset = s.vramBankOffset := rfl
@[simp] theorem State.report_romBankOffset (s : State) (e : ErrorKind) : (s.report e).romBankOffset = s.romBankOffset := rfl
@[simp] theorem State.report_ramBankOffset (s : State) (e : ErrorKind) : (s.report e).ramBankOffset = s.ramBankOffset := rfl
@[simp] theorem State.report_ramEnabled (s : State) (e : ErrorKind) : (s.report e).ramEnabled = s.ramEnabled := rfl
@[simp] theorem State.report_romBank (s : State) (e : ErrorKind) : (s.report e).romBank = s.romBank := rfl
@[simp] theorem State.report_modeSelect (s : State) (e : ErrorKind) : (s.report e).modeSelect = s.modeSelect := rfl
@[simp] theorem State.report_rtcEnabled (s : State) (e : ErrorKind) : (s.report e).rtcEnabled = s.rtcEnabled := rfl
@[simp] theorem State.report_rtc (s : State) (e : ErrorKind) : (s.report e).rtc = s.rtc := rfl
@[simp] theorem State.report_ramBankIndex (s : State) (e : ErrorKind) : (s.report e).ramBankIndex = s.ramBankIndex := rfl
@[simp] theorem State.report_rtcSelect (s : State) (e : ErrorKind) : (s.report e).rtcSelect = s.rtcSelect := rfl
@[simp] theorem State.report_errors (s : State) (e : ErrorKind) : (s.report e).errors = s.errors ++ [e] := rfl
@[simp] theorem State.report_fault (s : State) (e : ErrorKind) : (s.report e).fault = s.fault := rfl
@[simp] theorem State.report_refused (s : State) (e : ErrorKind) : (s.report e).refused = s.refused := rfl
@[simp] theorem State.report_ioEvents (s : State) (e : ErrorKind) : (s.report e).ioEvents = s.ioEvents := rfl
@[simp] theorem State.report_ioDraws (s : State) (e : ErrorKind) : (s.report e).ioDraws = s.ioDraws := rfl
@[simp] theorem State.report_requests (s : State) (e : ErrorKind) : (s.report e).requests = s.requests := rfl
@[simp] theorem State.report_source (s : State) (e : ErrorKind) : (s.report e).source = s.source := rfl
@[simp] theorem State.report_sink (s : State) (e : ErrorKind) : (s.report e).sink = s.sink := rfl
@[simp] theorem State.report_response (s : State) (e : ErrorKind) : (s.report e).response = s.response := rfl

/-! ## Taking a request -/

@[simp] theorem State.accept_cfg (s : State) (r : Request) (rest : List Request) : (s.accept r rest).cfg = s.cfg := rfl
@[simp] theorem State.accept_vram (s : State) (r : Request) (rest : List Request) : (s.accept r rest).vram = s.vram := rfl
@[simp] theorem State.accept_wram (s : State) (r : Request) (rest : List Request) : (s.accept r rest).wram = s.wram := rfl
@[simp] theorem State.accept_oam (s : State) (r : Request) (rest : List Request) : (s.accept r rest).oam = s.oam := rfl
@[simp] theorem State.accept_cartRam (s : State) (r : Request) (rest : List Request) : (s.accept r rest).cartRam = s.cartRam := rfl
@[simp] theorem State.accept_wramBankOffset (s : State) (r : Request) (rest : List Request) : (s.accept r rest).wramBankOffset = s.wramBankOffset := rfl
@[simp] theorem State.accept_vramBankOffset (s : State) (r : Request) (rest : List Request) : (s.accept r rest).vramBankOffset = s.vramBankOffset := rfl
@[simp] theorem State.accept_romBankOffset (s : State) (r : Request) (rest : List Request) : (s.accept r rest).romBankOffset = s.romBankOffset := rfl
@[simp] theorem State.accept_ramBankOffset (s : State) (r : Request) (rest : List Request) : (s.accept r rest).ramBankOffset = s.ramBankOffset := rfl
@[simp] theorem State.accept_ramEnabled (s : State) (r : Request) (rest : List Request) : (s.accept r rest).ramEnabled = s.ramEnabled := rfl
@[simp] theorem State.accept_romBank (s : State) (r : Request) (rest : List Request) : (s.accept r rest).romBank = s.romBank := rfl
@[simp] theorem State.accept_modeSelect (s : State) (r : Request) (rest : List Request) : (s.accept r rest).modeSelect = s.modeSelect := rfl
@[simp] theorem State.accept_rtcEnabled (s : State) (r : Request) (rest : List Request) : (s.accept r rest).rtcEnabled = s.rtcEnabled := rfl
@[simp] theorem State.accept_rtc (s : State) (r : Request) (rest : List Request) : (s.accept r rest).rtc = s.rtc := rfl
@[simp] theorem State.accept_ramBankIndex (s : State) (r : Request) (rest : List Request) : (s.accept r rest).ramBankIndex = s.ramBankIndex := rfl
@[simp] theorem State.accept_rtcSelect (s : State) (r : Request) (rest : List Request) : (s.accept r rest).rtcSelect = s.rtcSelect := rfl
@[simp] theorem State.accept_errors (s : State) (r : Request) (rest : List Request) : (s.accept r rest).errors = s.errors := rfl
@[simp] theorem State.accept_fault (s : State) (r : Request) (rest : List Request) : (s.accept r rest).fault = s.fault := rfl
@[simp] theorem State.accept_refused (s : State) (r : Request) (rest : List Request) : (s.accept r rest).refused = s.refused := rfl
@[simp] theorem State.accept_ioEvents (s : State) (r : Request) (rest : List Request) : (s.accept r rest).ioEvents = s.ioEvents := rfl
@[simp] theorem State.accept_ioDraws (s : State) (r : Request) (rest : List Request) : (s.accept r rest).ioDraws = s.ioDraws := rfl
@[simp] theorem State.accept_requests (s : State) (r : Request) (rest : List Request) : (s.accept r rest).requests = rest := rfl
@[simp] theorem State.accept_source (s : State) (r : Request) (rest : List Request) : (s.accept r rest).source = r.source := rfl
@[simp] theorem State.accept_sink (s : State) (r : Request) (rest : List Request) : (s.accept r rest).sink = r.sink := rfl
@[simp] theorem State.accept_response (s : State) (r : Request) (rest : List Request) : (s.accept r rest).response = none := rfl

/-! ## The I/O port -/

@[simp] theorem ioRead_cfg (s : State) (a : Addr) : (ioRead s a).cfg = s.cfg := rfl
@[simp] theorem ioRead_vram (s : State) (a : Addr) : (ioRead s a).vram = s.vram := rfl
@[simp] theorem ioRead_wram (s : State) (a : Addr) : (ioRead s a).wram = s.wram := rfl
@[simp] theorem ioRead_oam (s : State) (a : Addr) : (ioRead s a).oam = s.oam := rfl
@[simp] theorem ioRead_cartRam (s : State) (a : Addr) : (ioRead s a).cartRam = s.cartRam := rfl
@[simp] theorem ioRead_wramBankOffset (s : State) (a : Addr) : (ioRead s a).wramBankOffset = s.wramBankOffset := rfl
@[simp] theorem ioRead_vramBankOffset (s : State) (a : Addr) : (ioRead s a).vramBankOffset = s.vramBankOffset := rfl
@[simp] theorem ioRead_romBankOffset (s : State) (a : Addr) : (ioRead s a).romBankOffset = s.romBankOffset := rfl
@[simp] theorem ioRead_ramBankOffset (s : State) (a : Addr) : (ioRead s a).ramBankOffset = s.ramBankOffset := rfl
@[simp] theorem ioRead_ramEnabled (s : State) (a : Addr) : (ioRead s a).ramEnabled = s.ramEnabled := rfl
@[simp] theorem ioRead_romBank (s : State) (a : Addr) : (ioRead s a).romBank = s.romBank := rfl
@[simp] theorem ioRead_modeSelect (s : State) (a : Addr) : (ioRead s a).modeSelect = s.modeSelect := rfl
@[simp] theorem ioRead_rtcEnabled (s : State) (a : Addr) : (ioRead s a).rtcEnabled = s.rtcEnabled := rfl
@[simp] theorem ioRead_rtc (s : State) (a : Addr) : (ioRead s a).rtc = s.rtc := rfl
@[simp] theorem ioRead_ramBankIndex (s : State) (a : Addr) : (ioRead s a).ramBankIndex = s.ramBankIndex := rfl
@[simp] theorem ioRead_rtcSelect (s : State) (a : Addr) : (ioRead s a).rtcSelect = s.rtcSelect := rfl
@[simp] theorem ioRead_errors (s : State) (a : Addr) : (ioRead s a).errors = s.errors := rfl
@[simp] theorem ioRead_fault (s : State) (a : Addr) : (ioRead s a).fault = s.fault := rfl
@[simp] theorem ioRead_refused (s : State) (a : Addr) : (ioRead s a).refused = s.refused := rfl
@[simp] theorem ioRead_ioEvents (s : State) (a : Addr) : (ioRead s a).ioEvents = s.ioEvents := rfl
@[simp] theorem ioRead_ioDraws (s : State) (a : Addr) : (ioRead s a).ioDraws = s.ioDraws + 1 := rfl
@[simp] theorem ioRead_requests (s : State) (a : Addr) : (ioRead s a).requests = s.requests := rfl
@[simp] theorem ioRead_source (s : State) (a : Addr) : (ioRead s a).source = s.source := rfl
@[simp] theorem ioRead_sink (s : State) (a : Addr) : (ioRead s a).sink = s.sink := rfl
@[simp] theorem ioRead_response (s : State) (a : Addr) : (ioRead s a).response = some (Config.ioByte s.ioDraws a) := rfl

/-! ## The I/O port, a write -/

@[simp] theorem ioWrite_cfg (s : State) (a : Addr) (v : Byte) : (ioWrite s a v).cfg = s.cfg := rfl
@[simp] theorem ioWrite_vram (s : State) (a : Addr) (v : Byte) : (ioWrite s a v).vram = s.vram := rfl
@[simp] theorem ioWrite_wram (s : State) (a : Addr) (v : Byte) : (ioWrite s a v).wram = s.wram := rfl
@[simp] theorem ioWrite_oam (s : State) (a : Addr) (v : Byte) : (ioWrite s a v).oam = s.oam := rfl
@[simp] theorem ioWrite_cartRam (s : State) (a : Addr) (v : Byte) : (ioWrite s a v).cartRam = s.cartRam := rfl
@[simp] theorem ioWrite_wramBankOffset (s : State) (a : Addr) (v : Byte) : (ioWrite s a v).wramBankOffset = s.wramBankOffset := rfl
@[simp] theorem ioWrite_vramBankOffset (s : State) (a : Addr) (v : Byte) : (ioWrite s a v).vramBankOffset = s.vramBankOffset := rfl
@[simp] theorem ioWrite_romBankOffset (s : State) (a : Addr) (v : Byte) : (ioWrite s a v).romBankOffset = s.romBankOffset := rfl
@[simp] theorem ioWrite_ramBankOffset (s : State) (a : Addr) (v : Byte) : (ioWrite s a v).ramBankOffset = s.ramBankOffset := rfl
@[simp] theorem ioWrite_ramEnabled (s : State) (a : Addr) (v : Byte) : (ioWrite s a v).ramEnabled = s.ramEnabled := rfl
@[simp] theorem ioWrite_romBank (s : State) (a : Addr) (v : Byte) : (ioWrite s a v).romBank = s.romBank := rfl
@[simp] theorem ioWrite_modeSelect (s : State) (a : Addr) (v : Byte) : (ioWrite s a v).modeSelect = s.modeSelect := rfl
@[simp] theorem ioWrite_rtcEnabled (s : State) (a : Addr) (v : Byte) : (ioWrite s a v).rtcEnabled = s.rtcEnabled := rfl
@[simp] theorem ioWrite_rtc (s : State) (a : Addr) (v : Byte) : (ioWrite s a v).rtc = s.rtc := rfl
@[simp] theorem ioWrite_ramBankIndex (s : State) (a : Addr) (v : Byte) : (ioWrite s a v).ramBankIndex = s.ramBankIndex := rfl
@[simp] theorem ioWrite_rtcSelect (s : State) (a : Addr) (v : Byte) : (ioWrite s a v).rtcSelect = s.rtcSelect := rfl
@[simp] theorem ioWrite_errors (s : State) (a : Addr) (v : Byte) : (ioWrite s a v).errors = s.errors := rfl
@[simp] theorem ioWrite_fault (s : State) (a : Addr) (v : Byte) : (ioWrite s a v).fault = s.fault := rfl
@[simp] theorem ioWrite_refused (s : State) (a : Addr) (v : Byte) : (ioWrite s a v).refused = s.refused := rfl
@[simp] theorem ioWrite_ioEvents (s : State) (a : Addr) (v : Byte) : (ioWrite s a v).ioEvents = s.ioEvents ++ [⟨a, v⟩] := rfl
@[simp] theorem ioWrite_ioDraws (s : State) (a : Addr) (v : Byte) : (ioWrite s a v).ioDraws = s.ioDraws := rfl
@[simp] theorem ioWrite_requests (s : State) (a : Addr) (v : Byte) : (ioWrite s a v).requests = s.requests := rfl
@[simp] theorem ioWrite_source (s : State) (a : Addr) (v : Byte) : (ioWrite s a v).source = s.source := rfl
@[simp] theorem ioWrite_sink (s : State) (a : Addr) (v : Byte) : (ioWrite s a v).sink = s.sink := rfl
@[simp] theorem ioWrite_response (s : State) (a : Addr) (v : Byte) : (ioWrite s a v).response = s.response := rfl

/-! ## A buffer replaced -/

@[simp] theorem State.putBuffer_cfg (s : State) (b : Buf) (m : Memory) : (s.putBuffer b m).cfg = s.cfg := by cases b <;> rfl
@[simp] theorem State.putBuffer_wramBankOffset (s : State) (b : Buf) (m : Memory) : (s.putBuffer b m).wramBankOffset = s.wramBankOffset := by cases b <;> rfl
@[simp] theorem State.putBuffer_vramBankOffset (s : State) (b : Buf) (m : Memory) : (s.putBuffer b m).vramBankOffset = s.vramBankOffset := by cases b <;> rfl
@[simp] theorem State.putBuffer_romBankOffset (s : State) (b : Buf) (m : Memory) : (s.putBuffer b m).romBankOffset = s.romBankOffset := by cases b <;> rfl
@[simp] theorem State.putBuffer_ramBankOffset (s : State) (b : Buf) (m : Memory) : (s.putBuffer b m).ramBankOffset = s.ramBankOffset := by cases b <;> rfl
@[simp] theorem State.putBuffer_ramEnabled (s : State) (b : Buf) (m : Memory) : (s.putBuffer b m).ramEnabled = s.ramEnabled := by cases b <;> rfl
@[simp] theorem State.putBuffer_romBank (s : State) (b : Buf) (m : Memory) : (s.putBuffer b m).romBank = s.romBank := by cases b <;> rfl
@[simp] theorem State.putBuffer_modeSelect (s : State) (b : Buf) (m : Memory) : (s.putBuffer b m).modeSelect = s.modeSelect := by cases b <;> rfl
@[simp] theorem State.putBuffer_rtcEnabled (s : State) (b : Buf) (m : Memory) : (s.putBuffer b m).rtcEnabled = s.rtcEnabled := by cases b <;> rfl
@[simp] theorem State.putBuffer_rtc (s : State) (b : Buf) (m : Memory) : (s.putBuffer b m).rtc = s.rtc := by cases b <;> rfl
@[simp] theorem State.putBuffer_ramBankIndex (s : State) (b : Buf) (m : Memory) : (s.putBuffer b m).ramBankIndex = s.ramBankIndex := by cases b <;> rfl
@[simp] theorem State.putBuffer_rtcSelect (s : State) (b : Buf) (m : Memory) : (s.putBuffer b m).rtcSelect = s.rtcSelect := by cases b <;> rfl
@[simp] theorem State.putBuffer_errors (s : State) (b : Buf) (m : Memory) : (s.putBuffer b m).errors = s.errors := by cases b <;> rfl
@[simp] theorem State.putBuffer_fault (s : State) (b : Buf) (m : Memory) : (s.putBuffer b m).fault = s.fault := by cases b <;> rfl
@[simp] theorem State.putBuffer_refused (s : State) (b : Buf) (m : Memory) : (s.putBuffer b m).refused = s.refused := by cases b <;> rfl
@[simp] theorem State.putBuffer_ioEvents (s : State) (b : Buf) (m : Memory) : (s.putBuffer b m).ioEvents = s.ioEvents := by cases b <;> rfl
@[simp] theorem State.putBuffer_ioDraws (s : State) (b : Buf) (m : Memory) : (s.putBuffer b m).ioDraws = s.ioDraws := by cases b <;> rfl
@[simp] theorem State.putBuffer_requests (s : State) (b : Buf) (m : Memory) : (s.putBuffer b m).requests = s.requests := by cases b <;> rfl
@[simp] theorem State.putBuffer_source (s : State) (b : Buf) (m : Memory) : (s.putBuffer b m).source = s.source := by cases b <;> rfl
@[simp] theorem State.putBuffer_sink (s : State) (b : Buf) (m : Memory) : (s.putBuffer b m).sink = s.sink := by cases b <;> rfl
@[simp] theorem State.putBuffer_response (s : State) (b : Buf) (m : Memory) : (s.putBuffer b m).response = s.response := by cases b <;> rfl

@[simp] theorem State.putBuffer_buffer (s : State) (b : Buf) (m : Memory) : (s.putBuffer b m).buffer b = m := by
  cases b <;> rfl

theorem State.putBuffer_buffer_of_ne (s : State) {b c : Buf} (m : Memory) (h : c ≠ b) :
    (s.putBuffer b m).buffer c = s.buffer c := by
  cases b <;> cases c <;> first | rfl | exact absurd rfl h

/-! ## The MBC1 selector -/

@[simp] theorem setMbc1RomBank_cfg (s : State) (n : BitVec 7) : (setMbc1RomBank n s).cfg = s.cfg := rfl
@[simp] theorem setMbc1RomBank_vram (s : State) (n : BitVec 7) : (setMbc1RomBank n s).vram = s.vram := rfl
@[simp] theorem setMbc1RomBank_wram (s : State) (n : BitVec 7) : (setMbc1RomBank n s).wram = s.wram := rfl
@[simp] theorem setMbc1RomBank_oam (s : State) (n : BitVec 7) : (setMbc1RomBank n s).oam = s.oam := rfl
@[simp] theorem setMbc1RomBank_cartRam (s : State) (n : BitVec 7) : (setMbc1RomBank n s).cartRam = s.cartRam := rfl
@[simp] theorem setMbc1RomBank_wramBankOffset (s : State) (n : BitVec 7) : (setMbc1RomBank n s).wramBankOffset = s.wramBankOffset := rfl
@[simp] theorem setMbc1RomBank_vramBankOffset (s : State) (n : BitVec 7) : (setMbc1RomBank n s).vramBankOffset = s.vramBankOffset := rfl
@[simp] theorem setMbc1RomBank_romBankOffset (s : State) (n : BitVec 7) : (setMbc1RomBank n s).romBankOffset = mbc1RomOffset n := rfl
@[simp] theorem setMbc1RomBank_ramBankOffset (s : State) (n : BitVec 7) : (setMbc1RomBank n s).ramBankOffset = s.ramBankOffset := rfl
@[simp] theorem setMbc1RomBank_ramEnabled (s : State) (n : BitVec 7) : (setMbc1RomBank n s).ramEnabled = s.ramEnabled := rfl
@[simp] theorem setMbc1RomBank_romBank (s : State) (n : BitVec 7) : (setMbc1RomBank n s).romBank = n := rfl
@[simp] theorem setMbc1RomBank_modeSelect (s : State) (n : BitVec 7) : (setMbc1RomBank n s).modeSelect = s.modeSelect := rfl
@[simp] theorem setMbc1RomBank_rtcEnabled (s : State) (n : BitVec 7) : (setMbc1RomBank n s).rtcEnabled = s.rtcEnabled := rfl
@[simp] theorem setMbc1RomBank_rtc (s : State) (n : BitVec 7) : (setMbc1RomBank n s).rtc = s.rtc := rfl
@[simp] theorem setMbc1RomBank_ramBankIndex (s : State) (n : BitVec 7) : (setMbc1RomBank n s).ramBankIndex = s.ramBankIndex := rfl
@[simp] theorem setMbc1RomBank_rtcSelect (s : State) (n : BitVec 7) : (setMbc1RomBank n s).rtcSelect = s.rtcSelect := rfl
@[simp] theorem setMbc1RomBank_errors (s : State) (n : BitVec 7) : (setMbc1RomBank n s).errors = s.errors := rfl
@[simp] theorem setMbc1RomBank_fault (s : State) (n : BitVec 7) : (setMbc1RomBank n s).fault = s.fault := rfl
@[simp] theorem setMbc1RomBank_refused (s : State) (n : BitVec 7) : (setMbc1RomBank n s).refused = s.refused := rfl
@[simp] theorem setMbc1RomBank_ioEvents (s : State) (n : BitVec 7) : (setMbc1RomBank n s).ioEvents = s.ioEvents := rfl
@[simp] theorem setMbc1RomBank_ioDraws (s : State) (n : BitVec 7) : (setMbc1RomBank n s).ioDraws = s.ioDraws := rfl
@[simp] theorem setMbc1RomBank_requests (s : State) (n : BitVec 7) : (setMbc1RomBank n s).requests = s.requests := rfl
@[simp] theorem setMbc1RomBank_source (s : State) (n : BitVec 7) : (setMbc1RomBank n s).source = s.source := rfl
@[simp] theorem setMbc1RomBank_sink (s : State) (n : BitVec 7) : (setMbc1RomBank n s).sink = s.sink := rfl
@[simp] theorem setMbc1RomBank_response (s : State) (n : BitVec 7) : (setMbc1RomBank n s).response = s.response := rfl

/-! ## The MBC1 enable write -/

@[simp] theorem mbc1RamEnable_cfg (s : State) (v : Byte) : (mbc1RamEnable v s).cfg = s.cfg := by
  unfold mbc1RamEnable; split <;> rfl
@[simp] theorem mbc1RamEnable_vram (s : State) (v : Byte) : (mbc1RamEnable v s).vram = s.vram := by
  unfold mbc1RamEnable; split <;> rfl
@[simp] theorem mbc1RamEnable_wram (s : State) (v : Byte) : (mbc1RamEnable v s).wram = s.wram := by
  unfold mbc1RamEnable; split <;> rfl
@[simp] theorem mbc1RamEnable_oam (s : State) (v : Byte) : (mbc1RamEnable v s).oam = s.oam := by
  unfold mbc1RamEnable; split <;> rfl
@[simp] theorem mbc1RamEnable_cartRam (s : State) (v : Byte) : (mbc1RamEnable v s).cartRam = s.cartRam := by
  unfold mbc1RamEnable; split <;> rfl
@[simp] theorem mbc1RamEnable_wramBankOffset (s : State) (v : Byte) : (mbc1RamEnable v s).wramBankOffset = s.wramBankOffset := by
  unfold mbc1RamEnable; split <;> rfl
@[simp] theorem mbc1RamEnable_vramBankOffset (s : State) (v : Byte) : (mbc1RamEnable v s).vramBankOffset = s.vramBankOffset := by
  unfold mbc1RamEnable; split <;> rfl
@[simp] theorem mbc1RamEnable_romBankOffset (s : State) (v : Byte) : (mbc1RamEnable v s).romBankOffset = s.romBankOffset := by
  unfold mbc1RamEnable; split <;> rfl
@[simp] theorem mbc1RamEnable_ramBankOffset (s : State) (v : Byte) : (mbc1RamEnable v s).ramBankOffset = s.ramBankOffset := by
  unfold mbc1RamEnable; split <;> rfl
@[simp] theorem mbc1RamEnable_ramEnabled (s : State) (v : Byte) : (mbc1RamEnable v s).ramEnabled = if s.cfg.ramBankCount ≥ 1 then enableTest v else s.ramEnabled := by
  unfold mbc1RamEnable; split <;> rfl
@[simp] theorem mbc1RamEnable_romBank (s : State) (v : Byte) : (mbc1RamEnable v s).romBank = s.romBank := by
  unfold mbc1RamEnable; split <;> rfl
@[simp] theorem mbc1RamEnable_modeSelect (s : State) (v : Byte) : (mbc1RamEnable v s).modeSelect = s.modeSelect := by
  unfold mbc1RamEnable; split <;> rfl
@[simp] theorem mbc1RamEnable_rtcEnabled (s : State) (v : Byte) : (mbc1RamEnable v s).rtcEnabled = s.rtcEnabled := by
  unfold mbc1RamEnable; split <;> rfl
@[simp] theorem mbc1RamEnable_rtc (s : State) (v : Byte) : (mbc1RamEnable v s).rtc = s.rtc := by
  unfold mbc1RamEnable; split <;> rfl
@[simp] theorem mbc1RamEnable_ramBankIndex (s : State) (v : Byte) : (mbc1RamEnable v s).ramBankIndex = s.ramBankIndex := by
  unfold mbc1RamEnable; split <;> rfl
@[simp] theorem mbc1RamEnable_rtcSelect (s : State) (v : Byte) : (mbc1RamEnable v s).rtcSelect = s.rtcSelect := by
  unfold mbc1RamEnable; split <;> rfl
@[simp] theorem mbc1RamEnable_errors (s : State) (v : Byte) : (mbc1RamEnable v s).errors = s.errors := by
  unfold mbc1RamEnable; split <;> rfl
@[simp] theorem mbc1RamEnable_fault (s : State) (v : Byte) : (mbc1RamEnable v s).fault = s.fault := by
  unfold mbc1RamEnable; split <;> rfl
@[simp] theorem mbc1RamEnable_refused (s : State) (v : Byte) : (mbc1RamEnable v s).refused = s.refused := by
  unfold mbc1RamEnable; split <;> rfl
@[simp] theorem mbc1RamEnable_ioEvents (s : State) (v : Byte) : (mbc1RamEnable v s).ioEvents = s.ioEvents := by
  unfold mbc1RamEnable; split <;> rfl
@[simp] theorem mbc1RamEnable_ioDraws (s : State) (v : Byte) : (mbc1RamEnable v s).ioDraws = s.ioDraws := by
  unfold mbc1RamEnable; split <;> rfl
@[simp] theorem mbc1RamEnable_requests (s : State) (v : Byte) : (mbc1RamEnable v s).requests = s.requests := by
  unfold mbc1RamEnable; split <;> rfl
@[simp] theorem mbc1RamEnable_source (s : State) (v : Byte) : (mbc1RamEnable v s).source = s.source := by
  unfold mbc1RamEnable; split <;> rfl
@[simp] theorem mbc1RamEnable_sink (s : State) (v : Byte) : (mbc1RamEnable v s).sink = s.sink := by
  unfold mbc1RamEnable; split <;> rfl
@[simp] theorem mbc1RamEnable_response (s : State) (v : Byte) : (mbc1RamEnable v s).response = s.response := by
  unfold mbc1RamEnable; split <;> rfl

/-! ## The MBC3 enable write -/

@[simp] theorem mbc3Enable_cfg (s : State) (v : Byte) : (mbc3Enable v s).cfg = s.cfg := by
  unfold mbc3Enable; split <;> rfl
@[simp] theorem mbc3Enable_vram (s : State) (v : Byte) : (mbc3Enable v s).vram = s.vram := by
  unfold mbc3Enable; split <;> rfl
@[simp] theorem mbc3Enable_wram (s : State) (v : Byte) : (mbc3Enable v s).wram = s.wram := by
  unfold mbc3Enable; split <;> rfl
@[simp] theorem mbc3Enable_oam (s : State) (v : Byte) : (mbc3Enable v s).oam = s.oam := by
  unfold mbc3Enable; split <;> rfl
@[simp] theorem mbc3Enable_cartRam (s : State) (v : Byte) : (mbc3Enable v s).cartRam = s.cartRam := by
  unfold mbc3Enable; split <;> rfl
@[simp] theorem mbc3Enable_wramBankOffset (s : State) (v : Byte) : (mbc3Enable v s).wramBankOffset = s.wramBankOffset := by
  unfold mbc3Enable; split <;> rfl
@[simp] theorem mbc3Enable_vramBankOffset (s : State) (v : Byte) : (mbc3Enable v s).vramBankOffset = s.vramBankOffset := by
  unfold mbc3Enable; split <;> rfl
@[simp] theorem mbc3Enable_romBankOffset (s : State) (v : Byte) : (mbc3Enable v s).romBankOffset = s.romBankOffset := by
  unfold mbc3Enable; split <;> rfl
@[simp] theorem mbc3Enable_ramBankOffset (s : State) (v : Byte) : (mbc3Enable v s).ramBankOffset = s.ramBankOffset := by
  unfold mbc3Enable; split <;> rfl
@[simp] theorem mbc3Enable_ramEnabled (s : State) (v : Byte) : (mbc3Enable v s).ramEnabled = if s.cfg.ramBankCount ≥ 1 then enableTest v else s.ramEnabled := by
  unfold mbc3Enable; split <;> rfl
@[simp] theorem mbc3Enable_romBank (s : State) (v : Byte) : (mbc3Enable v s).romBank = s.romBank := by
  unfold mbc3Enable; split <;> rfl
@[simp] theorem mbc3Enable_modeSelect (s : State) (v : Byte) : (mbc3Enable v s).modeSelect = s.modeSelect := by
  unfold mbc3Enable; split <;> rfl
@[simp] theorem mbc3Enable_rtcEnabled (s : State) (v : Byte) : (mbc3Enable v s).rtcEnabled = enableTest v := by
  unfold mbc3Enable; split <;> rfl
@[simp] theorem mbc3Enable_rtc (s : State) (v : Byte) : (mbc3Enable v s).rtc = s.rtc := by
  unfold mbc3Enable; split <;> rfl
@[simp] theorem mbc3Enable_ramBankIndex (s : State) (v : Byte) : (mbc3Enable v s).ramBankIndex = s.ramBankIndex := by
  unfold mbc3Enable; split <;> rfl
@[simp] theorem mbc3Enable_rtcSelect (s : State) (v : Byte) : (mbc3Enable v s).rtcSelect = s.rtcSelect := by
  unfold mbc3Enable; split <;> rfl
@[simp] theorem mbc3Enable_errors (s : State) (v : Byte) : (mbc3Enable v s).errors = s.errors := by
  unfold mbc3Enable; split <;> rfl
@[simp] theorem mbc3Enable_fault (s : State) (v : Byte) : (mbc3Enable v s).fault = s.fault := by
  unfold mbc3Enable; split <;> rfl
@[simp] theorem mbc3Enable_refused (s : State) (v : Byte) : (mbc3Enable v s).refused = s.refused := by
  unfold mbc3Enable; split <;> rfl
@[simp] theorem mbc3Enable_ioEvents (s : State) (v : Byte) : (mbc3Enable v s).ioEvents = s.ioEvents := by
  unfold mbc3Enable; split <;> rfl
@[simp] theorem mbc3Enable_ioDraws (s : State) (v : Byte) : (mbc3Enable v s).ioDraws = s.ioDraws := by
  unfold mbc3Enable; split <;> rfl
@[simp] theorem mbc3Enable_requests (s : State) (v : Byte) : (mbc3Enable v s).requests = s.requests := by
  unfold mbc3Enable; split <;> rfl
@[simp] theorem mbc3Enable_source (s : State) (v : Byte) : (mbc3Enable v s).source = s.source := by
  unfold mbc3Enable; split <;> rfl
@[simp] theorem mbc3Enable_sink (s : State) (v : Byte) : (mbc3Enable v s).sink = s.sink := by
  unfold mbc3Enable; split <;> rfl
@[simp] theorem mbc3Enable_response (s : State) (v : Byte) : (mbc3Enable v s).response = s.response := by
  unfold mbc3Enable; split <;> rfl

/-! ## A load's copy -/

@[simp] theorem fillCartRam_cfg (s : State) : (fillCartRam s).cfg = s.cfg := rfl
@[simp] theorem fillCartRam_vram (s : State) : (fillCartRam s).vram = s.vram := rfl
@[simp] theorem fillCartRam_wram (s : State) : (fillCartRam s).wram = s.wram := rfl
@[simp] theorem fillCartRam_oam (s : State) : (fillCartRam s).oam = s.oam := rfl
@[simp] theorem fillCartRam_cartRam (s : State) : (fillCartRam s).cartRam = Memory.fromBytes 0 (s.source.bytes.take (bufSize s.cfg .cartRam)) := rfl
@[simp] theorem fillCartRam_wramBankOffset (s : State) : (fillCartRam s).wramBankOffset = s.wramBankOffset := rfl
@[simp] theorem fillCartRam_vramBankOffset (s : State) : (fillCartRam s).vramBankOffset = s.vramBankOffset := rfl
@[simp] theorem fillCartRam_romBankOffset (s : State) : (fillCartRam s).romBankOffset = s.romBankOffset := rfl
@[simp] theorem fillCartRam_ramBankOffset (s : State) : (fillCartRam s).ramBankOffset = s.ramBankOffset := rfl
@[simp] theorem fillCartRam_ramEnabled (s : State) : (fillCartRam s).ramEnabled = s.ramEnabled := rfl
@[simp] theorem fillCartRam_romBank (s : State) : (fillCartRam s).romBank = s.romBank := rfl
@[simp] theorem fillCartRam_modeSelect (s : State) : (fillCartRam s).modeSelect = s.modeSelect := rfl
@[simp] theorem fillCartRam_rtcEnabled (s : State) : (fillCartRam s).rtcEnabled = s.rtcEnabled := rfl
@[simp] theorem fillCartRam_rtc (s : State) : (fillCartRam s).rtc = s.rtc := rfl
@[simp] theorem fillCartRam_ramBankIndex (s : State) : (fillCartRam s).ramBankIndex = s.ramBankIndex := rfl
@[simp] theorem fillCartRam_rtcSelect (s : State) : (fillCartRam s).rtcSelect = s.rtcSelect := rfl
@[simp] theorem fillCartRam_errors (s : State) : (fillCartRam s).errors = s.errors := rfl
@[simp] theorem fillCartRam_fault (s : State) : (fillCartRam s).fault = s.fault := rfl
@[simp] theorem fillCartRam_refused (s : State) : (fillCartRam s).refused = s.refused := rfl
@[simp] theorem fillCartRam_ioEvents (s : State) : (fillCartRam s).ioEvents = s.ioEvents := rfl
@[simp] theorem fillCartRam_ioDraws (s : State) : (fillCartRam s).ioDraws = s.ioDraws := rfl
@[simp] theorem fillCartRam_requests (s : State) : (fillCartRam s).requests = s.requests := rfl
@[simp] theorem fillCartRam_source (s : State) : (fillCartRam s).source = s.source := rfl
@[simp] theorem fillCartRam_sink (s : State) : (fillCartRam s).sink = s.sink := rfl
@[simp] theorem fillCartRam_response (s : State) : (fillCartRam s).response = s.response := rfl

/-! ## A request presented -/

@[simp] theorem presentWord_cfg (s : State) (w : ReqWord) : (presentWord s w).cfg = s.cfg := rfl
@[simp] theorem presentWord_vram (s : State) (w : ReqWord) : (presentWord s w).vram = s.vram := rfl
@[simp] theorem presentWord_wram (s : State) (w : ReqWord) : (presentWord s w).wram = s.wram := rfl
@[simp] theorem presentWord_oam (s : State) (w : ReqWord) : (presentWord s w).oam = s.oam := rfl
@[simp] theorem presentWord_cartRam (s : State) (w : ReqWord) : (presentWord s w).cartRam = s.cartRam := rfl
@[simp] theorem presentWord_wramBankOffset (s : State) (w : ReqWord) : (presentWord s w).wramBankOffset = s.wramBankOffset := rfl
@[simp] theorem presentWord_vramBankOffset (s : State) (w : ReqWord) : (presentWord s w).vramBankOffset = s.vramBankOffset := rfl
@[simp] theorem presentWord_romBankOffset (s : State) (w : ReqWord) : (presentWord s w).romBankOffset = s.romBankOffset := rfl
@[simp] theorem presentWord_ramBankOffset (s : State) (w : ReqWord) : (presentWord s w).ramBankOffset = s.ramBankOffset := rfl
@[simp] theorem presentWord_ramEnabled (s : State) (w : ReqWord) : (presentWord s w).ramEnabled = s.ramEnabled := rfl
@[simp] theorem presentWord_romBank (s : State) (w : ReqWord) : (presentWord s w).romBank = s.romBank := rfl
@[simp] theorem presentWord_modeSelect (s : State) (w : ReqWord) : (presentWord s w).modeSelect = s.modeSelect := rfl
@[simp] theorem presentWord_rtcEnabled (s : State) (w : ReqWord) : (presentWord s w).rtcEnabled = s.rtcEnabled := rfl
@[simp] theorem presentWord_rtc (s : State) (w : ReqWord) : (presentWord s w).rtc = s.rtc := rfl
@[simp] theorem presentWord_ramBankIndex (s : State) (w : ReqWord) : (presentWord s w).ramBankIndex = s.ramBankIndex := rfl
@[simp] theorem presentWord_rtcSelect (s : State) (w : ReqWord) : (presentWord s w).rtcSelect = s.rtcSelect := rfl
@[simp] theorem presentWord_errors (s : State) (w : ReqWord) : (presentWord s w).errors = s.errors := rfl
@[simp] theorem presentWord_fault (s : State) (w : ReqWord) : (presentWord s w).fault = s.fault := rfl
@[simp] theorem presentWord_refused (s : State) (w : ReqWord) : (presentWord s w).refused = s.refused := rfl
@[simp] theorem presentWord_ioEvents (s : State) (w : ReqWord) : (presentWord s w).ioEvents = s.ioEvents := rfl
@[simp] theorem presentWord_ioDraws (s : State) (w : ReqWord) : (presentWord s w).ioDraws = s.ioDraws := rfl
@[simp] theorem presentWord_requests (s : State) (w : ReqWord) : (presentWord s w).requests = ⟨w, s.source, s.sink⟩ :: s.requests := rfl
@[simp] theorem presentWord_source (s : State) (w : ReqWord) : (presentWord s w).source = s.source := rfl
@[simp] theorem presentWord_sink (s : State) (w : ReqWord) : (presentWord s w).sink = s.sink := rfl
@[simp] theorem presentWord_response (s : State) (w : ReqWord) : (presentWord s w).response = s.response := rfl

/-! ## A buffer depends on its own field only -/

@[simp] theorem State.respond_buffer (s : State) (v : Byte) (b : Buf) : (s.respond v).buffer b = s.buffer b := by
  cases b <;> rfl

@[simp] theorem State.report_buffer (s : State) (e : ErrorKind) (b : Buf) : (s.report e).buffer b = s.buffer b := by
  cases b <;> rfl

@[simp] theorem State.accept_buffer (s : State) (r : Request) (rest : List Request) (b : Buf) : (s.accept r rest).buffer b = s.buffer b := by
  cases b <;> rfl

end Sys2Proof.Machine
end

