-- ==== Sys2Proof/Laws/Ops.lean ====
section
/-! SUPPORT. What each shared operation can do, said once. -/

namespace Sys2Proof.Machine

/-! ## Buffers -/

/-- A load answers a byte exactly when the index is in bounds. -/
theorem loadByte_eq_ok {s : State} {b : Buf} {i : Nat} {v : Byte} :
    loadByte s b i = .ok v ↔ i < bufSize s.cfg b ∧ v = (s.buffer b).read i := by
  unfold loadByte
  split <;> simp_all [eq_comm]

/-- A load faults exactly when the index is out of bounds. -/
theorem loadByte_eq_error {s : State} {b : Buf} {i : Nat} {f : Fault} :
    loadByte s b i = .error f ↔ bufSize s.cfg b ≤ i ∧ f = .bounds b i := by
  unfold loadByte
  split <;> simp_all [eq_comm]

/-- A store goes on exactly when the index is in bounds. -/
theorem storeByte_eq_next {s t : State} {b : Buf} {i : Nat} {v : Byte} :
    storeByte s b i v = .next t ↔ i < bufSize s.cfg b ∧ t = s.putBuffer b ((s.buffer b).write i v) := by
  unfold storeByte
  split <;> simp_all [eq_comm]

theorem storeByte_eq_fault {s : State} {b : Buf} {i : Nat} {v : Byte} {f : Fault} :
    storeByte s b i v = .fault f ↔ bufSize s.cfg b ≤ i ∧ f = .bounds b i := by
  unfold storeByte
  split <;> simp_all [eq_comm]

/-- Every byte of every buffer after a store. -/
theorem putBuffer_write_read (s : State) (b c : Buf) (i j : Nat) (v : Byte) :
    ((s.putBuffer b ((s.buffer b).write i v)).buffer c).read j
      = if c = b ∧ j = i then v else (s.buffer c).read j := by
  by_cases h : c = b
  · subst h
    simp [Memory.read_write]
  · simp [State.putBuffer_buffer_of_ne _ _ h, h]

/-! ## ROM and RTC -/

theorem romRead_eq_ok {s : State} {off : Nat} {v : Byte} :
    romRead s off = .ok v ↔ romAnswer s.cfg.rom off = some v := by
  cases h : romAnswer s.cfg.rom off <;> simp [romRead, h]

theorem romRead_eq_error {s : State} {off : Nat} {f : Fault} :
    romRead s off = .error f ↔ romAnswer s.cfg.rom off = none ∧ f = .romUnmapped off := by
  cases h : romAnswer s.cfg.rom off <;> simp [romRead, h, eq_comm]

theorem RtcFile.get_set (r : RtcFile) (v : Byte) (i j : Fin 4) :
    (r.set v i).get j = if j = i then v else r.get j := by
  fin_cases i <;> fin_cases j <;> rfl

/-! ## The end of a read -/

/-- A read ends in a next state only by returning a byte. -/
theorem deliver_eq_next {s t : State} {r : Except Fault Byte} :
    deliver s r = .next t ↔ ∃ v, r = .ok v ∧ t = s.respond v := by
  cases r <;> simp [deliver, eq_comm]

theorem deliver_eq_fault {s : State} {r : Except Fault Byte} {f : Fault} :
    deliver s r = .fault f ↔ r = .error f := by
  cases r <;> simp [deliver]

theorem deliver_ne_refused {s : State} {r : Except Fault Byte} {x : Refusal} : deliver s r ≠ .refused x := by
  cases r <;> simp [deliver]

/-! ## The gated accesses -/

theorem xramRead_closed {s : State} (h : s.ramEnabled = false) (a : Addr) : xramRead s a = .ok 0xFF := by
  simp [xramRead, h]

theorem xramRead_open {s : State} (h : s.ramEnabled = true) (a : Addr) :
    xramRead s a = loadByte s .cartRam (xramIndex s a) := by
  simp [xramRead, h]

theorem ramStore_closed {s : State} (h : s.ramEnabled = false) (a : Addr) (v : Byte) : ramStore a v s = .next s := by
  simp [ramStore, h]

theorem ramStore_open {s : State} (h : s.ramEnabled = true) (a : Addr) (v : Byte) :
    ramStore a v s = storeByte s .cartRam (xramIndex s a) v := by
  simp [ramStore, h]

/-- A gated store goes on discarded, or with one byte of cartridge RAM stored through the open gate. -/
theorem ramStore_eq_next {s t : State} {a : Addr} {v : Byte} (h : ramStore a v s = .next t) :
    (s.ramEnabled = false ∧ t = s) ∨ (s.ramEnabled = true ∧ xramIndex s a < bufSize s.cfg .cartRam ∧
      t = { s with cartRam := s.cartRam.write (xramIndex s a) v }) := by
  by_cases hg : s.ramEnabled = true
  · rw [ramStore_open hg, storeByte_eq_next] at h
    exact .inr ⟨hg, h.1, h.2⟩
  · rw [ramStore_closed (by simpa using hg)] at h
    cases h
    exact .inl ⟨by simpa using hg, rfl⟩

/-- An RTC write goes on only with an index, and writes that byte. -/
theorem rtcWrite_eq_next {s t : State} {v : Byte} :
    rtcWrite v s = .next t ↔
      ∃ i, rtcIndex s.cfg.rtcIndexMap s.rtcSelect = some i ∧ t = { s with rtc := s.rtc.set v i } := by
  cases h : rtcIndex s.cfg.rtcIndexMap s.rtcSelect <;> simp [rtcWrite, h, eq_comm]

/-! ## Taking a request -/

/-- Everything a fetch can find. -/
theorem fetch_cases (s : State) :
    (∃ f, s.fault = some f ∧ fetch s = .stuck f) ∨
    (s.fault = none ∧ s.refused = true ∧ fetch s = .stopped) ∨
    (s.fault = none ∧ s.refused = false ∧ s.requests = [] ∧ fetch s = .idle) ∨
    (∃ r rest e, s.fault = none ∧ s.refused = false ∧ s.requests = r :: rest ∧
      decode s.cfg.kind r.word = .error e ∧ fetch s = .rejected e) ∨
    (∃ r rest i, s.fault = none ∧ s.refused = false ∧ s.requests = r :: rest ∧
      decode s.cfg.kind r.word = .ok i ∧ fetch s = .run i (s.accept r rest)) := by
  unfold fetch
  split
  · exact .inl ⟨_, ‹_›, rfl⟩
  · rename_i hf
    cases hr : s.refused with
    | true => exact .inr (.inl ⟨hf, rfl, by simp⟩)
    | false =>
      split
      · simp_all
      · split
        · exact .inr (.inr (.inl ⟨hf, rfl, ‹_›, rfl⟩))
        · rename_i r rest hq
          cases hd : decode s.cfg.kind r.word with
          | error e => exact .inr (.inr (.inr (.inl ⟨r, rest, e, hf, rfl, hq, hd, by simp⟩)))
          | ok i => exact .inr (.inr (.inr (.inr ⟨r, rest, i, hf, rfl, hq, hd, by simp⟩)))

end Sys2Proof.Machine
end

