-- ==== Sys2Proof/Laws/Exec.lean ====
section
/-! SUPPORT. One equation per operation, in terms of the shared operations: a proof rewrites with it and need not
unfold exec. -/

namespace Sys2Proof.Machine

theorem exec_rdRom0 (a : Addr) (s : State) : exec (.rdRom0 a) s =
    deliver s (romRead s (rom0Offset a)) := rfl

theorem exec_rdRomx (a : Addr) (s : State) : exec (.rdRomx a) s =
    deliver s (romRead s (romxOffset s a)) := rfl

theorem exec_rdVram (a : Addr) (s : State) : exec (.rdVram a) s =
    deliver s (loadByte s .vram (vramIndex s a)) := rfl

theorem exec_rdXramNone (a : Addr) (s : State) : exec (.rdXramNone a) s =
    .next (s.respond 0x00) := rfl

theorem exec_rdXram (a : Addr) (s : State) : exec (.rdXram a) s =
    if s.cfg.kind = .mbc3 ∧ s.cfg.rtcReadPath = .rtcFile ∧ s.ramBankIndex = -1 then deliver s (rtcRead s)
  else deliver s (xramRead s a) := rfl

theorem exec_rdWram0 (a : Addr) (s : State) : exec (.rdWram0 a) s =
    deliver s (loadByte s .wram (wram0Index a)) := rfl

theorem exec_rdWramx (a : Addr) (s : State) : exec (.rdWramx a) s =
    deliver s (loadByte s .wram (wramxIndex s a)) := rfl

theorem exec_rdEcho (a : Addr) (s : State) : exec (.rdEcho a) s =
    deliver s (romRead s (rom0Offset (echoTarget a))) := rfl

theorem exec_rdOam (a : Addr) (s : State) : exec (.rdOam a) s =
    deliver s (loadByte s .oam (oamIndex a)) := rfl

theorem exec_rdUnusable (a : Addr) (s : State) : exec (.rdUnusable a) s =
    .next (s.respond 0xFF) := rfl

theorem exec_rdIo (a : Addr) (s : State) : exec (.rdIo a) s =
    .next (ioRead s a) := rfl

theorem exec_wrRomNop (a : Addr) (v : Byte) (s : State) : exec (.wrRomNop a v) s =
    .next s := rfl

theorem exec_wrVram (a : Addr) (v : Byte) (s : State) : exec (.wrVram a v) s =
    storeByte s .vram (vramIndex s a) v := rfl

theorem exec_wrXramNop (a : Addr) (v : Byte) (s : State) : exec (.wrXramNop a v) s =
    .next s := rfl

theorem exec_wrWram0 (a : Addr) (v : Byte) (s : State) : exec (.wrWram0 a v) s =
    storeByte s .wram (wram0Index a) v := rfl

theorem exec_wrWramx (a : Addr) (v : Byte) (s : State) : exec (.wrWramx a v) s =
    storeByte s .wram (wramxIndex s a) v := rfl

theorem exec_wrEcho (a : Addr) (v : Byte) (s : State) : exec (.wrEcho a v) s =
    match s.cfg.echoReentry with
  | .base => .next s
  | .full =>
    match s.cfg.kind with
    | .none => .next s
    | .mbc1 => .next (mbc1RamEnable v s)
    | .mbc2 => .next s
    | .mbc3 => .next (mbc3Enable v s) := rfl

theorem exec_wrOam (a : Addr) (v : Byte) (s : State) : exec (.wrOam a v) s =
    storeByte s .oam (oamIndex a) v := rfl

theorem exec_wrUnusable (a : Addr) (v : Byte) (s : State) : exec (.wrUnusable a v) s =
    .next s := rfl

theorem exec_wrIo (a : Addr) (v : Byte) (s : State) : exec (.wrIo a v) s =
    .next (ioWrite s a v) := rfl

theorem exec_wrMbc1Ramen (a : Addr) (v : Byte) (s : State) : exec (.wrMbc1Ramen a v) s =
    .next (mbc1RamEnable v s) := rfl

theorem exec_wrMbc1Romlo (a : Addr) (v : Byte) (s : State) : exec (.wrMbc1Romlo a v) s =
    .next (setMbc1RomBank (withLowBits s.romBank v) s) := rfl

theorem exec_wrMbc1Bankhi (a : Addr) (v : Byte) (s : State) : exec (.wrMbc1Bankhi a v) s =
    if s.modeSelect then .next (setMbc1RomBank (withHighBits s.romBank v) s)
  else .next { s with ramBankOffset := mbc1RamOffset v } := rfl

theorem exec_wrMbc1Mode (a : Addr) (v : Byte) (s : State) : exec (.wrMbc1Mode a v) s =
    if s.cfg.ramBankCount = 3 then .next { s with modeSelect := modeTest v } else .next s := rfl

theorem exec_wrMbc1Xram (a : Addr) (v : Byte) (s : State) : exec (.wrMbc1Xram a v) s =
    ramStore a v s := rfl

theorem exec_wrMbc3Enable (a : Addr) (v : Byte) (s : State) : exec (.wrMbc3Enable a v) s =
    .next (mbc3Enable v s) := rfl

theorem exec_wrMbc3Romb (a : Addr) (v : Byte) (s : State) : exec (.wrMbc3Romb a v) s =
    .next { s with romBankOffset := mbc3RomBank v * romPage } := rfl

theorem exec_wrMbc3RambRtc (a : Addr) (v : Byte) (s : State) : exec (.wrMbc3RambRtc a v) s =
    if (0x08 ≤ v.toNat ∧ v.toNat ≤ 0x0C) ∧ s.rtcEnabled = true then
    .next { s with ramBankIndex := -1, rtcSelect := some v }
  else if v.toNat ≤ 0x03 then
    .next { s with ramBankIndex := (v.toNat : Int), ramBankOffset := v.toNat * ramPage }
  else .next s := rfl

theorem exec_wrMbc3Xram (a : Addr) (v : Byte) (s : State) : exec (.wrMbc3Xram a v) s =
    if s.ramBankIndex = -1 then rtcWrite v s else ramStore a v s := rfl

theorem exec_saveBase (s : State) : exec .saveBase s =
    .next (s.report .noPersistence) := rfl

theorem exec_saveMbc (s : State) : exec .saveMbc s =
    if s.cfg.hasBattery then
    .next { s with sink := s.sink ++ s.cartRam.dump (bufSize s.cfg .cartRam) }
  else .next (s.report .noPersistence) := rfl

theorem exec_loadBase (s : State) : exec .loadBase s =
    .next (s.report .noPersistence) := rfl

theorem exec_loadMbc (s : State) : exec .loadMbc s =
    if s.cfg.hasBattery then
    if s.source.valid then
      if s.source.bytes.length < bufSize s.cfg .cartRam then .next ((fillCartRam s).report .dataIntegrity)
      else .next (fillCartRam s)
    else .next (s.report .prematureEnd)
  else .next (s.report .noPersistence) := rfl

/-- No operation is refused: a request of a decoded word has its effect or faults (R282, R284). -/
theorem exec_ne_refused (i : Instr) (s : State) (x : Refusal) : exec i s ≠ .refused x := by
  have hs : ∀ b j v, storeByte s b j v ≠ .refused x := by
    intro b j v h
    unfold storeByte at h
    split at h <;> cases h
  have hr : ∀ a v, ramStore a v s ≠ .refused x := by
    intro a v h
    unfold ramStore at h
    split at h
    · exact hs _ _ _ h
    · cases h
  have hw : ∀ v, rtcWrite v s ≠ .refused x := by
    intro v h
    unfold rtcWrite at h
    split at h <;> cases h
  intro h
  cases i with
  | rdRom0 a =>
    rw [exec_rdRom0] at h
    exact deliver_ne_refused h
  | rdRomx a =>
    rw [exec_rdRomx] at h
    exact deliver_ne_refused h
  | rdVram a =>
    rw [exec_rdVram] at h
    exact deliver_ne_refused h
  | rdXramNone a =>
    rw [exec_rdXramNone] at h
    cases h
  | rdXram a =>
    rw [exec_rdXram] at h
    split at h <;> exact deliver_ne_refused h
  | rdWram0 a =>
    rw [exec_rdWram0] at h
    exact deliver_ne_refused h
  | rdWramx a =>
    rw [exec_rdWramx] at h
    exact deliver_ne_refused h
  | rdEcho a =>
    rw [exec_rdEcho] at h
    exact deliver_ne_refused h
  | rdOam a =>
    rw [exec_rdOam] at h
    exact deliver_ne_refused h
  | rdUnusable a =>
    rw [exec_rdUnusable] at h
    cases h
  | rdIo a =>
    rw [exec_rdIo] at h
    cases h
  | wrRomNop a v =>
    rw [exec_wrRomNop] at h
    cases h
  | wrVram a v =>
    rw [exec_wrVram] at h
    exact hs _ _ _ h
  | wrXramNop a v =>
    rw [exec_wrXramNop] at h
    cases h
  | wrWram0 a v =>
    rw [exec_wrWram0] at h
    exact hs _ _ _ h
  | wrWramx a v =>
    rw [exec_wrWramx] at h
    exact hs _ _ _ h
  | wrEcho a v =>
    rw [exec_wrEcho] at h
    split at h
    · cases h
    · split at h <;> cases h
  | wrOam a v =>
    rw [exec_wrOam] at h
    exact hs _ _ _ h
  | wrUnusable a v =>
    rw [exec_wrUnusable] at h
    cases h
  | wrIo a v =>
    rw [exec_wrIo] at h
    cases h
  | wrMbc1Ramen a v =>
    rw [exec_wrMbc1Ramen] at h
    cases h
  | wrMbc1Romlo a v =>
    rw [exec_wrMbc1Romlo] at h
    cases h
  | wrMbc1Bankhi a v =>
    rw [exec_wrMbc1Bankhi] at h
    split at h <;> cases h
  | wrMbc1Mode a v =>
    rw [exec_wrMbc1Mode] at h
    split at h <;> cases h
  | wrMbc1Xram a v =>
    rw [exec_wrMbc1Xram] at h
    exact hr _ _ h
  | wrMbc3Enable a v =>
    rw [exec_wrMbc3Enable] at h
    cases h
  | wrMbc3Romb a v =>
    rw [exec_wrMbc3Romb] at h
    cases h
  | wrMbc3RambRtc a v =>
    rw [exec_wrMbc3RambRtc] at h
    split at h
    · cases h
    · split at h <;> cases h
  | wrMbc3Xram a v =>
    rw [exec_wrMbc3Xram] at h
    split at h
    · exact hw _ h
    · exact hr _ _ h
  | saveBase =>
    rw [exec_saveBase] at h
    cases h
  | saveMbc =>
    rw [exec_saveMbc] at h
    split at h <;> cases h
  | loadBase =>
    rw [exec_loadBase] at h
    cases h
  | loadMbc =>
    rw [exec_loadMbc] at h
    split at h
    · split at h
      · split at h <;> cases h
      · cases h
    · cases h

/-! ## The lengths of the buffers -/

theorem bufSize_vram (c : Config) : bufSize c .vram = if c.enhanced then 0x4000 else 0x2000 := by
  cases h : c.enhanced <;> simp [bufSize, h]

theorem bufSize_wram (c : Config) : bufSize c .wram = if c.enhanced then 0x8000 else 0x2000 := by
  cases h : c.enhanced <;> simp [bufSize, h]

theorem bufSize_oam (c : Config) : bufSize c .oam = 160 := rfl

theorem bufSize_cartRam {c : Config} (h : c.kind ≠ .none) : bufSize c .cartRam = c.cartRamSize := by
  cases hk : c.kind <;> simp_all [bufSize]

/-! ## Indexes that are always in bounds -/

theorem wram0Index_lt {a : Addr} (h : a.toNat ≤ 0xCFFF) (c : Config) : wram0Index a < bufSize c .wram := by
  unfold wram0Index bufSize
  cases c.enhanced
  · show a.toNat - 0xC000 < 2 * 0x1000
    omega
  · show a.toNat - 0xC000 < 8 * 0x1000
    omega

theorem oamIndex_lt {a : Addr} (h : a.toNat ≤ 0xFE9F) (c : Config) : oamIndex a < bufSize c .oam := by
  have h2 : a.toNat - 0xFE00 < 160 := by omega
  exact h2

/-- The echo's target as a number (R137, R152). -/
theorem echoTarget_toNat {a : Addr} (h : 0xE000 ≤ a.toNat) : (echoTarget a).toNat = a.toNat - 0xE000 := by
  have := a.isLt
  rw [echoTarget, BitVec.toNat_sub]
  simp
  omega

/-! ## The tests and bank numbers of a written byte, as numbers -/

theorem enableTest_eq (v : Byte) : enableTest v = decide (v.toNat % 16 = 0xA) := by
  have h : v.extractLsb' 0 4 = 0xA#4 ↔ v.toNat % 16 = 0xA := by
    rw [← BitVec.toNat_inj]
    simp [BitVec.extractLsb'_toNat]
  simp [enableTest, h]

theorem modeTest_eq (v : Byte) : modeTest v = decide (v.toNat % 2 = 1) := by
  have h : v.extractLsb' 0 1 = 1#1 ↔ v.toNat % 2 = 1 := by
    rw [← BitVec.toNat_inj]
    simp [BitVec.extractLsb'_toNat]
  simp [modeTest, h]

theorem withLowBits_toNat (n : BitVec 7) (v : Byte) :
    (withLowBits n v).toNat = n.toNat / 32 * 32 + v.toNat % 32 := by
  have hn := n.isLt
  simp only [withLowBits, BitVec.toNat_append, BitVec.extractLsb'_toNat, Nat.shiftRight_eq_div_pow]
  rw [← Nat.shiftLeft_add_eq_or_of_lt (by omega), Nat.shiftLeft_eq]
  omega

theorem withHighBits_toNat (n : BitVec 7) (v : Byte) :
    (withHighBits n v).toNat = v.toNat % 4 * 32 + n.toNat % 32 := by
  simp only [withHighBits, BitVec.toNat_append, BitVec.extractLsb'_toNat, Nat.shiftRight_eq_div_pow]
  rw [← Nat.shiftLeft_add_eq_or_of_lt (by omega), Nat.shiftLeft_eq]
  omega

theorem alias1_toNat (n : BitVec 7) : (alias1 n).toNat = if n.toNat % 32 = 0 then n.toNat + 1 else n.toNat := by
  have hn := n.isLt
  have h : n.extractLsb' 0 5 = 0#5 ↔ n.toNat % 32 = 0 := by
    rw [← BitVec.toNat_inj]
    simp [BitVec.extractLsb'_toNat]
  unfold alias1
  simp only [h]
  split
  · rw [BitVec.toNat_add]
    simp
    omega
  · rfl

theorem mbc1RamOffset_eq (v : Byte) : mbc1RamOffset v = v.toNat % 4 * 0x2000 := by
  simp [mbc1RamOffset, ramPage, BitVec.extractLsb'_toNat]

theorem mbc3RomBank_eq (v : Byte) : mbc3RomBank v = if v.toNat % 128 = 0 then 1 else v.toNat % 128 := by
  have h : v.extractLsb' 0 7 = 0#7 ↔ v.toNat % 128 = 0 := by
    rw [← BitVec.toNat_inj]
    simp [BitVec.extractLsb'_toNat]
  simp [mbc3RomBank, h, BitVec.extractLsb'_toNat]

end Sys2Proof.Machine
end

