-- ==== Sys2Proof/Laws/Construct.lean ====
section
/-! SUPPORT. What construction can do, said once. -/

namespace Sys2Proof.Machine

/-- A construction of one of the four kinds: the built block, with the report of MBC2, or BAD_CONFIG. -/
theorem construct_known (k : Kind) (p : Params) (init : InitContents) :
    construct (.known k) p init =
      if configOk ⟨p, k⟩ init then
        .next (if k = .mbc2 then (built ⟨p, k⟩ init).report .unsupported else built ⟨p, k⟩ init)
      else .refused .badConfig := by
  unfold construct
  cases k <;> rfl

/-- A construction yields a block only of one of the four kinds and with its constraints met. -/
theorem construct_eq_next {name : KindName} {p : Params} {init : InitContents} {s : State}
    (h : construct name p init = .next s) :
    ∃ k, name = .known k ∧ configOk ⟨p, k⟩ init = true ∧
      s = (if k = .mbc2 then (built ⟨p, k⟩ init).report .unsupported else built ⟨p, k⟩ init) := by
  cases name with
  | other n => cases h
  | known k =>
    rw [construct_known] at h
    split at h <;> cases h
    exact ⟨k, rfl, ‹_›, rfl⟩

/-- The constraints of R317, as propositions. -/
theorem configOk_iff (c : Config) (init : InitContents) :
    configOk c init = true ↔
      (c.wramBankOffsetInit % 0x1000 = 0 ∧ c.wramBankOffsetInit + 0x1000 ≤ bufSize c .wram) ∧
      (c.vramBankOffsetInit % 0x2000 = 0 ∧ c.vramBankOffsetInit + 0x2000 ≤ bufSize c .vram) ∧
      init.vram.length = bufSize c .vram ∧ init.wram.length = bufSize c .wram ∧
      init.oam.length = bufSize c .oam ∧ (c.kind = .none ∨ init.cartRam.length = bufSize c .cartRam) := by
  simp only [configOk, Bool.and_eq_true, Bool.or_eq_true, decide_eq_true_eq, and_assoc]

end Sys2Proof.Machine
end

