-- ==== Sys2Proof/Laws/Decode.lean ====
section
/-! SUPPORT. The fields of a request word, and the word that fields make. -/

namespace Sys2Proof

@[simp] theorem opField_requestWord (op : BitVec 2) (a : Addr) (d : Byte) : opField (requestWord op a d) = op := by
  apply BitVec.eq_of_getLsbD_eq
  intro i hi
  have h : i < 2 := hi
  simp only [opField, requestWord, BitVec.getLsbD_extractLsb', BitVec.getLsbD_append]
  simp [show ¬ 24 + i < 8 by omega, show ¬ 24 + i - 8 < 16 by omega, show 24 + i - 8 - 16 = i by omega, h]

@[simp] theorem addrField_requestWord (op : BitVec 2) (a : Addr) (d : Byte) : addrField (requestWord op a d) = a := by
  apply BitVec.eq_of_getLsbD_eq
  intro i hi
  simp only [addrField, requestWord, BitVec.getLsbD_extractLsb', BitVec.getLsbD_append]
  simp [show ¬ 8 + i < 8 by omega, show 8 + i - 8 = i by omega, hi]

@[simp] theorem dataField_requestWord (op : BitVec 2) (a : Addr) (d : Byte) : dataField (requestWord op a d) = d := by
  apply BitVec.eq_of_getLsbD_eq
  intro i hi
  simp only [dataField, requestWord, BitVec.getLsbD_extractLsb', BitVec.getLsbD_append]
  simp [hi]

/-- A word is the word of its fields: no bit is dropped. -/
theorem requestWord_fields (w : ReqWord) : requestWord (opField w) (addrField w) (dataField w) = w := by
  apply BitVec.eq_of_getLsbD_eq
  intro i hi
  simp only [requestWord, opField, addrField, dataField, BitVec.getLsbD_append, BitVec.getLsbD_extractLsb']
  by_cases h8 : i < 8
  · simp [h8]
  · by_cases h24 : i - 8 < 16
    · simp [h8, h24, show 8 + (i - 8) = i by omega]
    · simp [h8, h24, show i - 8 - 16 < 2 by omega, show 24 + (i - 8 - 16) = i by omega]

theorem requestWord_inj {op op' : BitVec 2} {a a' : Addr} {d d' : Byte}
    (h : requestWord op a d = requestWord op' a' d') : op = op' ∧ a = a' ∧ d = d' := by
  refine ⟨?_, ?_, ?_⟩
  · simpa using congrArg opField h
  · simpa using congrArg addrField h
  · simpa using congrArg dataField h

theorem opField_cases (w : ReqWord) : opField w = 0b00 ∨ opField w = 0b01 ∨ opField w = 0b10 ∨ opField w = 0b11 := by
  generalize opField w = o
  revert o
  decide

/-! ## The tables -/

/-- A READ decodes by the read table (R107). -/
theorem decode_read (k : Kind) (a : Addr) : decode k (requestWord 0b00 a 0) = .ok (decodeRead k a) := by
  simp [decode]

/-- A WRITE decodes by the write table (R107). -/
theorem decode_write (k : Kind) (a : Addr) (d : Byte) : decode k (requestWord 0b01 a d) = .ok (decodeWrite k a d) := by
  simp [decode]

/-- The ranges of the read table: every address lies in one. -/
theorem addr_regions (a : Addr) :
    a.toNat ≤ 0x3FFF ∨ (0x4000 ≤ a.toNat ∧ a.toNat ≤ 0x7FFF) ∨ (0x8000 ≤ a.toNat ∧ a.toNat ≤ 0x9FFF) ∨
    (0xA000 ≤ a.toNat ∧ a.toNat ≤ 0xBFFF) ∨ (0xC000 ≤ a.toNat ∧ a.toNat ≤ 0xCFFF) ∨
    (0xD000 ≤ a.toNat ∧ a.toNat ≤ 0xDFFF) ∨ (0xE000 ≤ a.toNat ∧ a.toNat ≤ 0xFDFF) ∨
    (0xFE00 ≤ a.toNat ∧ a.toNat ≤ 0xFE9F) ∨ (0xFEA0 ≤ a.toNat ∧ a.toNat ≤ 0xFEFF) ∨ 0xFF00 ≤ a.toNat := by
  omega

/-- The four control windows of the ROM range. -/
theorem rom_windows {a : Addr} (h : a.toNat ≤ 0x7FFF) :
    a.toNat ≤ 0x1FFF ∨ (0x2000 ≤ a.toNat ∧ a.toNat ≤ 0x3FFF) ∨ (0x4000 ≤ a.toNat ∧ a.toNat ≤ 0x5FFF) ∨
    (0x6000 ≤ a.toNat ∧ a.toNat ≤ 0x7FFF) := by
  omega

/-- The read table gives an operation the kind has, at the address asked. -/
theorem decodeRead_wf (k : Kind) (a : Addr) :
    (decodeRead k a).wf k = true ∧ encode (decodeRead k a) = requestWord 0b00 a 0 := by
  have := a.isLt
  rcases addr_regions a with h | h | h | h | h | h | h | h | h | h <;> cases k <;>
    (simp (disch := omega) only [decodeRead, if_pos, if_neg]; refine ⟨?_, rfl⟩) <;>
    simp (disch := omega) only [Instr.wf, Addr.within, decide_eq_true] <;> rfl

/-- The write table gives an operation the kind has, at the address and byte asked. -/
theorem decodeWrite_wf (k : Kind) (a : Addr) (d : Byte) :
    (decodeWrite k a d).wf k = true ∧ encode (decodeWrite k a d) = requestWord 0b01 a d := by
  have := a.isLt
  have hr : (a.toNat ≤ 0x1FFF ∨ (0x2000 ≤ a.toNat ∧ a.toNat ≤ 0x3FFF) ∨ (0x4000 ≤ a.toNat ∧ a.toNat ≤ 0x5FFF) ∨
      (0x6000 ≤ a.toNat ∧ a.toNat ≤ 0x7FFF)) ∨ 0x8000 ≤ a.toNat := by omega
  rcases hr with (h | h | h | h) | h8
  all_goals try
    cases k <;> (simp (disch := omega) only [decodeWrite, if_pos, if_neg]; refine ⟨?_, rfl⟩) <;>
      simp (disch := omega) only [Instr.wf, wrRomNopRange, Addr.within, decide_eq_true] <;> rfl
  rcases addr_regions a with h | h | h | h | h | h | h | h | h | h <;> cases k <;>
    first
      | (exfalso; omega)
      | (simp (disch := omega) only [decodeWrite, if_pos, if_neg]
         refine ⟨?_, rfl⟩
         simp (disch := omega) only [Instr.wf, Addr.within, decide_eq_true]
         rfl)

end Sys2Proof
end

