-- ==== Sys2Proof/Laws/Step.lean ====
section
/-! SUPPORT. What a step can do, said once: it idles, or it runs the decoded operation. -/

namespace Sys2Proof.Machine

/-- A step that answers a next state idled, or took the oldest request and ran its operation. -/
theorem step_eq_next {s t : State} (h : step s = .next t) :
    (s.requests = [] ∧ t = s) ∨
    (∃ r rest i, s.fault = none ∧ s.refused = false ∧ s.requests = r :: rest ∧
      decode s.cfg.kind r.word = .ok i ∧ exec i (s.accept r rest) = .next t) := by
  unfold step at h
  rcases fetch_cases s with ⟨f, -, hx⟩ | ⟨-, -, hx⟩ | ⟨-, -, hq, hx⟩ | ⟨r, rest, e, -, -, -, -, hx⟩ |
    ⟨r, rest, i, hf, hr, hq, hd, hx⟩ <;> rw [hx] at h
  · cases h
  · cases h
  · cases h
    exact .inl ⟨hq, rfl⟩
  · cases h
  · exact .inr ⟨r, rest, i, hf, hr, hq, hd, h⟩

/-- A step that faults was stuck already, or ran an operation that faults. -/
theorem step_eq_fault {s : State} {f : Fault} (h : step s = .fault f) :
    s.fault = some f ∨
    (∃ r rest i, s.fault = none ∧ s.refused = false ∧ s.requests = r :: rest ∧
      decode s.cfg.kind r.word = .ok i ∧ exec i (s.accept r rest) = .fault f) := by
  unfold step at h
  rcases fetch_cases s with ⟨g, hg, hx⟩ | ⟨-, -, hx⟩ | ⟨-, -, hq, hx⟩ | ⟨r, rest, e, -, -, -, -, hx⟩ |
    ⟨r, rest, i, hf, hr, hq, hd, hx⟩ <;> rw [hx] at h
  · cases h
    exact .inl hg
  · cases h
  · cases h
  · cases h
  · exact .inr ⟨r, rest, i, hf, hr, hq, hd, h⟩

end Sys2Proof.Machine
end

