-- ==== Sys2Proof/Laws/Effect.lean ====
section
/-! SUPPORT. What each operation can do, said once: the next state of every operation, by constructor. Every
invariant and frame is read off this one inversion. -/

namespace Sys2Proof.Machine

/-- A read outside the I/O range returned a byte. -/
def Responded (s t : State) : Prop := ∃ v, t = s.respond v

/-- A byte of a buffer was stored, in bounds. -/
def Stored (s t : State) (b : Buf) (i : Nat) (v : Byte) : Prop :=
  i < bufSize s.cfg b ∧ t = s.putBuffer b ((s.buffer b).write i v)

/-- A gated store: discarded, or one byte of cartridge RAM through the open gate. -/
def GatedStored (s t : State) (a : Addr) (v : Byte) : Prop :=
  (s.ramEnabled = false ∧ t = s) ∨ (s.ramEnabled = true ∧ Stored s t .cartRam (xramIndex s a) v)

/-- The next states of an operation. -/
def Effect (i : Instr) (s t : State) : Prop :=
  match i with
  | .rdRom0 _ => Responded s t
  | .rdRomx _ => Responded s t
  | .rdVram _ => Responded s t
  | .rdXramNone _ => t = s.respond 0x00
  | .rdXram _ => Responded s t
  | .rdWram0 _ => Responded s t
  | .rdWramx _ => Responded s t
  | .rdEcho _ => Responded s t
  | .rdOam _ => Responded s t
  | .rdUnusable _ => t = s.respond 0xFF
  | .rdIo a => t = ioRead s a
  | .wrRomNop _ _ => t = s
  | .wrVram a v => Stored s t .vram (vramIndex s a) v
  | .wrXramNop _ _ => t = s
  | .wrWram0 a v => Stored s t .wram (wram0Index a) v
  | .wrWramx a v => Stored s t .wram (wramxIndex s a) v
  | .wrEcho _ v =>
    t = s ∨ (s.cfg.echoReentry = .full ∧
      ((s.cfg.kind = .mbc1 ∧ t = mbc1RamEnable v s) ∨ (s.cfg.kind = .mbc3 ∧ t = mbc3Enable v s)))
  | .wrOam a v => Stored s t .oam (oamIndex a) v
  | .wrUnusable _ _ => t = s
  | .wrIo a v => t = ioWrite s a v
  | .wrMbc1Ramen _ v => t = mbc1RamEnable v s
  | .wrMbc1Romlo _ v => t = setMbc1RomBank (withLowBits s.romBank v) s
  | .wrMbc1Bankhi _ v =>
    (s.modeSelect = true ∧ t = setMbc1RomBank (withHighBits s.romBank v) s) ∨
    (s.modeSelect = false ∧ t = { s with ramBankOffset := mbc1RamOffset v })
  | .wrMbc1Mode _ v =>
    (s.cfg.ramBankCount = 3 ∧ t = { s with modeSelect := modeTest v }) ∨ (s.cfg.ramBankCount ≠ 3 ∧ t = s)
  | .wrMbc1Xram a v => GatedStored s t a v
  | .wrMbc3Enable _ v => t = mbc3Enable v s
  | .wrMbc3Romb _ v => t = { s with romBankOffset := mbc3RomBank v * romPage }
  | .wrMbc3RambRtc _ v =>
    (0x08 ≤ v.toNat ∧ v.toNat ≤ 0x0C ∧ s.rtcEnabled = true ∧
      t = { s with ramBankIndex := -1, rtcSelect := some v }) ∨
    (v.toNat ≤ 0x03 ∧ t = { s with ramBankIndex := (v.toNat : Int), ramBankOffset := v.toNat * ramPage }) ∨
    t = s
  | .wrMbc3Xram a v =>
    (s.ramBankIndex = -1 ∧ ∃ i, t = { s with rtc := s.rtc.set v i }) ∨ (s.ramBankIndex ≠ -1 ∧ GatedStored s t a v)
  | .saveBase => t = s.report .noPersistence
  | .saveMbc =>
    t = { s with sink := s.sink ++ s.cartRam.dump (bufSize s.cfg .cartRam) } ∨ t = s.report .noPersistence
  | .loadBase => t = s.report .noPersistence
  | .loadMbc =>
    t = (fillCartRam s).report .dataIntegrity ∨ t = fillCartRam s ∨ t = s.report .prematureEnd ∨
    t = s.report .noPersistence

theorem responded_of_deliver {s t : State} {r : Except Fault Byte} (h : deliver s r = .next t) : Responded s t := by
  obtain ⟨v, -, ht⟩ := deliver_eq_next.1 h
  exact ⟨v, ht⟩

theorem gatedStored_of_ramStore {s t : State} {a : Addr} {v : Byte} (h : ramStore a v s = .next t) :
    GatedStored s t a v := by
  rcases ramStore_eq_next h with ⟨hg, ht⟩ | ⟨hg, hi, ht⟩
  · exact .inl ⟨hg, ht⟩
  · exact .inr ⟨hg, hi, ht⟩

/-- An operation that goes on has its effect. -/
theorem exec_effect {i : Instr} {s t : State} (h : exec i s = .next t) : Effect i s t := by
  cases i with
  | rdRom0 a => rw [exec_rdRom0] at h; exact responded_of_deliver h
  | rdRomx a => rw [exec_rdRomx] at h; exact responded_of_deliver h
  | rdVram a => rw [exec_rdVram] at h; exact responded_of_deliver h
  | rdXramNone a => rw [exec_rdXramNone] at h; cases h; rfl
  | rdXram a => rw [exec_rdXram] at h; split at h <;> exact responded_of_deliver h
  | rdWram0 a => rw [exec_rdWram0] at h; exact responded_of_deliver h
  | rdWramx a => rw [exec_rdWramx] at h; exact responded_of_deliver h
  | rdEcho a => rw [exec_rdEcho] at h; exact responded_of_deliver h
  | rdOam a => rw [exec_rdOam] at h; exact responded_of_deliver h
  | rdUnusable a => rw [exec_rdUnusable] at h; cases h; rfl
  | rdIo a => rw [exec_rdIo] at h; cases h; rfl
  | wrRomNop a v => rw [exec_wrRomNop] at h; cases h; rfl
  | wrVram a v => rw [exec_wrVram] at h; exact storeByte_eq_next.1 h
  | wrXramNop a v => rw [exec_wrXramNop] at h; cases h; rfl
  | wrWram0 a v => rw [exec_wrWram0] at h; exact storeByte_eq_next.1 h
  | wrWramx a v => rw [exec_wrWramx] at h; exact storeByte_eq_next.1 h
  | wrEcho a v =>
    rw [exec_wrEcho] at h
    split at h
    · cases h; exact .inl rfl
    · rename_i he
      split at h <;> rename_i hk <;> cases h
      · exact .inl rfl
      · exact .inr ⟨he, .inl ⟨hk, rfl⟩⟩
      · exact .inl rfl
      · exact .inr ⟨he, .inr ⟨hk, rfl⟩⟩
  | wrOam a v => rw [exec_wrOam] at h; exact storeByte_eq_next.1 h
  | wrUnusable a v => rw [exec_wrUnusable] at h; cases h; rfl
  | wrIo a v => rw [exec_wrIo] at h; cases h; rfl
  | wrMbc1Ramen a v => rw [exec_wrMbc1Ramen] at h; cases h; rfl
  | wrMbc1Romlo a v => rw [exec_wrMbc1Romlo] at h; cases h; rfl
  | wrMbc1Bankhi a v =>
    rw [exec_wrMbc1Bankhi] at h
    split at h <;> rename_i hm <;> cases h
    · exact .inl ⟨hm, rfl⟩
    · exact .inr ⟨by simpa using hm, rfl⟩
  | wrMbc1Mode a v =>
    rw [exec_wrMbc1Mode] at h
    split at h <;> rename_i hc <;> cases h
    · exact .inl ⟨hc, rfl⟩
    · exact .inr ⟨hc, rfl⟩
  | wrMbc1Xram a v => rw [exec_wrMbc1Xram] at h; exact gatedStored_of_ramStore h
  | wrMbc3Enable a v => rw [exec_wrMbc3Enable] at h; cases h; rfl
  | wrMbc3Romb a v => rw [exec_wrMbc3Romb] at h; cases h; rfl
  | wrMbc3RambRtc a v =>
    rw [exec_wrMbc3RambRtc] at h
    split at h
    · rename_i hv
      cases h
      exact .inl ⟨hv.1.1, hv.1.2, hv.2, rfl⟩
    · split at h <;> cases h
      · exact .inr (.inl ⟨‹_›, rfl⟩)
      · exact .inr (.inr rfl)
  | wrMbc3Xram a v =>
    rw [exec_wrMbc3Xram] at h
    split at h
    · obtain ⟨i, -, ht⟩ := rtcWrite_eq_next.1 h
      exact .inl ⟨‹_›, i, ht⟩
    · exact .inr ⟨‹_›, gatedStored_of_ramStore h⟩
  | saveBase => rw [exec_saveBase] at h; cases h; rfl
  | saveMbc =>
    rw [exec_saveMbc] at h
    split at h <;> cases h
    · exact .inl rfl
    · exact .inr rfl
  | loadBase => rw [exec_loadBase] at h; cases h; rfl
  | loadMbc =>
    rw [exec_loadMbc] at h
    split at h
    · split at h
      · split at h <;> cases h
        · exact .inl rfl
        · exact .inr (.inl rfl)
      · cases h; exact .inr (.inr (.inl rfl))
    · cases h; exact .inr (.inr (.inr rfl))

/-- A step that goes on idled, or had the effect of its decoded request on the state with the request taken. -/
theorem step_effect {s t : State} (h : step s = .next t) :
    (s.requests = [] ∧ t = s) ∨
    (∃ r rest i, s.fault = none ∧ s.refused = false ∧ s.requests = r :: rest ∧
      decode s.cfg.kind r.word = .ok i ∧ Effect i (s.accept r rest) t) := by
  rcases step_eq_next h with h0 | ⟨r, rest, i, hf, hr, hq, hd, hx⟩
  · exact .inl h0
  · exact .inr ⟨r, rest, i, hf, hr, hq, hd, exec_effect hx⟩

end Sys2Proof.Machine
end

