-- ==== Sys2Proof/Laws/PerInstr.lean ====
section
/-! SUPPORT. The per-instruction family ReservedZero: the word of an operation keeps its reserved fields zero
(spec/30_encoding.md R104). -/

namespace Sys2Proof.Laws.ReservedZero

/-- The reserved-zero fields of a request word: DATA of a READ, ADDR and DATA of a SAVE or LOAD. -/
def clear (w : ReqWord) : Prop :=
  (opField w = 0b00 → dataField w = 0) ∧ (opField w = 0b10 ∨ opField w = 0b11 → addrField w = 0 ∧ dataField w = 0)

def Statement (i : Instr) : Prop := clear (encode i)

theorem read_clear (a : Addr) : clear (requestWord 0b00 a 0) := by
  simp [clear]

theorem write_clear (a : Addr) (d : Byte) : clear (requestWord 0b01 a d) := by
  simp [clear]

theorem stream_clear (op : BitVec 2) (_h : op ≠ 0b00) : clear (requestWord op 0 0) := by
  simp [clear]

theorem rdRom0 (a : Addr) : Statement (.rdRom0 a) := read_clear a

theorem rdRomx (a : Addr) : Statement (.rdRomx a) := read_clear a

theorem rdVram (a : Addr) : Statement (.rdVram a) := read_clear a

theorem rdXramNone (a : Addr) : Statement (.rdXramNone a) := read_clear a

theorem rdXram (a : Addr) : Statement (.rdXram a) := read_clear a

theorem rdWram0 (a : Addr) : Statement (.rdWram0 a) := read_clear a

theorem rdWramx (a : Addr) : Statement (.rdWramx a) := read_clear a

theorem rdEcho (a : Addr) : Statement (.rdEcho a) := read_clear a

theorem rdOam (a : Addr) : Statement (.rdOam a) := read_clear a

theorem rdUnusable (a : Addr) : Statement (.rdUnusable a) := read_clear a

theorem rdIo (a : Addr) : Statement (.rdIo a) := read_clear a

theorem wrRomNop (a : Addr) (d : Byte) : Statement (.wrRomNop a d) := write_clear a d

theorem wrVram (a : Addr) (d : Byte) : Statement (.wrVram a d) := write_clear a d

theorem wrXramNop (a : Addr) (d : Byte) : Statement (.wrXramNop a d) := write_clear a d

theorem wrWram0 (a : Addr) (d : Byte) : Statement (.wrWram0 a d) := write_clear a d

theorem wrWramx (a : Addr) (d : Byte) : Statement (.wrWramx a d) := write_clear a d

theorem wrEcho (a : Addr) (d : Byte) : Statement (.wrEcho a d) := write_clear a d

theorem wrOam (a : Addr) (d : Byte) : Statement (.wrOam a d) := write_clear a d

theorem wrUnusable (a : Addr) (d : Byte) : Statement (.wrUnusable a d) := write_clear a d

theorem wrIo (a : Addr) (d : Byte) : Statement (.wrIo a d) := write_clear a d

theorem wrMbc1Ramen (a : Addr) (d : Byte) : Statement (.wrMbc1Ramen a d) := write_clear a d

theorem wrMbc1Romlo (a : Addr) (d : Byte) : Statement (.wrMbc1Romlo a d) := write_clear a d

theorem wrMbc1Bankhi (a : Addr) (d : Byte) : Statement (.wrMbc1Bankhi a d) := write_clear a d

theorem wrMbc1Mode (a : Addr) (d : Byte) : Statement (.wrMbc1Mode a d) := write_clear a d

theorem wrMbc1Xram (a : Addr) (d : Byte) : Statement (.wrMbc1Xram a d) := write_clear a d

theorem wrMbc3Enable (a : Addr) (d : Byte) : Statement (.wrMbc3Enable a d) := write_clear a d

theorem wrMbc3Romb (a : Addr) (d : Byte) : Statement (.wrMbc3Romb a d) := write_clear a d

theorem wrMbc3RambRtc (a : Addr) (d : Byte) : Statement (.wrMbc3RambRtc a d) := write_clear a d

theorem wrMbc3Xram (a : Addr) (d : Byte) : Statement (.wrMbc3Xram a d) := write_clear a d

theorem saveBase : Statement .saveBase := stream_clear _ (by decide)

theorem saveMbc : Statement .saveMbc := stream_clear _ (by decide)

theorem loadBase : Statement .loadBase := stream_clear _ (by decide)

theorem loadMbc : Statement .loadMbc := stream_clear _ (by decide)

end Sys2Proof.Laws.ReservedZero
end

