-- ==== Sys2Proof/Tests/Slice0.lean ====
section
/-! SUPPORT. Tests: ill-formed operations, words written out bit by bit (spec/30_encoding.md R100 to R104), one or two
single steps per operation with results from spec/95_test_vectors.md and the rules' examples, and for every
statement with hypotheses a state and operands that meet them, each clause at a boundary of its range. -/

open Sys2Proof Sys2Proof.Machine Sys2Proof.Claims

namespace Sys2Proof.Tests

/-! ## Helpers -/

/-- The outcome is a next state with a property. -/
def nextHas (r : Result) (p : State → Bool) : Bool :=
  match r with
  | .next t => p t
  | .fault _ => false
  | .refused _ => false

/-- The outcome is this fault. -/
def faultsWith (r : Result) (f : Fault) : Bool :=
  match r with
  | .next _ => false
  | .fault g => decide (g = f)
  | .refused _ => false

/-- The outcome is this refusal. -/
def refusedWith (r : Result) (x : Refusal) : Bool :=
  match r with
  | .next _ => false
  | .fault _ => false
  | .refused y => decide (y = x)

theorem nextHas_exists {r : Result} {p : State → Bool} (h : nextHas r p = true) : ∃ t, r = .next t ∧ p t = true := by
  cases r with
  | next t => exact ⟨t, rfl, h⟩
  | fault _ => cases h
  | refused _ => cases h

theorem faultsWith_eq {r : Result} {f : Fault} (h : faultsWith r f = true) : r = .fault f := by
  cases r with
  | next _ => cases h
  | fault g => simpa [faultsWith] using h
  | refused _ => cases h

theorem refusedWith_eq {r : Result} {x : Refusal} (h : refusedWith r x = true) : r = .refused x := by
  cases r with
  | next _ => cases h
  | fault _ => cases h
  | refused y => simpa [refusedWith] using h

/-- The bytes of the test ROM (spec/95_test_vectors.md, Conventions) that the tests read, and a hole at 0x8000. -/
def romT : RomPort :=
  ⟨[(0x0000, some 0x00), (0x0150, some 0x50), (0x1DFF, some 0xFF), (0x3FFF, some 0xFF), (0x4000, some 0x01),
    (0x7FFF, some 0xFE), (0x8000, none), (0x84000, some 0x21)], 0⟩

/-- The block right after construction, of a kind and with a number of RAM banks, with the `RTC_INDEX_MAP` of
spec/95_test_vectors.md L2.7. -/
def block (k : Kind) (banks : Nat) : State :=
  { State.reset with cfg := { Config.standard with
      kind := k, ramBankCount := banks, cartRamSize := banks * 0x2000, rom := romT,
      rtcIndexMap := ⟨some 0, some 1, some 2, some 3, none⟩ } }

/-- The state with one request pending. -/
def withWord (s : State) (w : ReqWord) : State := { s with requests := [⟨w, ⟨true, [0x01]⟩, [0x7E]⟩] }

/-- A block with four bytes of battery-backed cartridge RAM. -/
def battery : State :=
  { block .mbc1 1 with
    cfg := { (block .mbc1 1).cfg with hasBattery := true, cartRamSize := 4 }, cartRam := [(0, 0xAA), (1, 0xBB)] }

/-- An MBC3 block with the gate open in RTC mode. -/
def rtcMode (v : Byte) : State :=
  { block .mbc3 4 with ramEnabled := true, rtcEnabled := true, ramBankIndex := -1, rtcSelect := some v }

/-! ## Ill-formed operations: a kind or an address outside the row is refused -/

theorem test_wf_refuses_read_addresses :
    (Instr.rdRom0 0x4000).wf .mbc1 = false ∧ (Instr.rdRomx 0x3FFF).wf .mbc1 = false ∧
    (Instr.rdVram 0xA000).wf .mbc1 = false ∧ (Instr.rdXramNone 0xC000).wf .none = false ∧
    (Instr.rdXram 0x9FFF).wf .mbc1 = false ∧ (Instr.rdWram0 0xD000).wf .none = false ∧
    (Instr.rdWramx 0xE000).wf .none = false ∧ (Instr.rdEcho 0xFE00).wf .none = false ∧
    (Instr.rdOam 0xFEA0).wf .none = false ∧ (Instr.rdUnusable 0xFF00).wf .none = false ∧
    (Instr.rdIo 0xFEFF).wf .none = false := by decide

theorem test_wf_refuses_write_addresses :
    (Instr.wrRomNop 0x8000 0).wf .none = false ∧ (Instr.wrRomNop 0x5FFF 0).wf .mbc3 = false ∧
    (Instr.wrVram 0x7FFF 0).wf .none = false ∧ (Instr.wrXramNop 0xC000 0).wf .none = false ∧
    (Instr.wrWram0 0xBFFF 0).wf .none = false ∧ (Instr.wrWramx 0xCFFF 0).wf .none = false ∧
    (Instr.wrEcho 0xDFFF 0).wf .none = false ∧ (Instr.wrOam 0xFDFF 0).wf .none = false ∧
    (Instr.wrUnusable 0xFE9F 0).wf .none = false ∧ (Instr.wrIo 0xFEFF 0).wf .none = false := by decide

theorem test_wf_refuses_controller_addresses :
    (Instr.wrMbc1Ramen 0x2000 0).wf .mbc1 = false ∧ (Instr.wrMbc1Romlo 0x1FFF 0).wf .mbc1 = false ∧
    (Instr.wrMbc1Bankhi 0x6000 0).wf .mbc1 = false ∧ (Instr.wrMbc1Mode 0x8000 0).wf .mbc1 = false ∧
    (Instr.wrMbc1Xram 0xC000 0).wf .mbc1 = false ∧ (Instr.wrMbc3Enable 0x2000 0).wf .mbc3 = false ∧
    (Instr.wrMbc3Romb 0x4000 0).wf .mbc3 = false ∧ (Instr.wrMbc3RambRtc 0x3FFF 0).wf .mbc3 = false ∧
    (Instr.wrMbc3Xram 0x9FFF 0).wf .mbc3 = false := by decide

theorem test_wf_refuses_kinds :
    (Instr.rdXramNone 0xA000).wf .mbc1 = false ∧ (Instr.rdXram 0xA000).wf .none = false ∧
    (Instr.wrRomNop 0x6000 0).wf .mbc1 = false ∧ (Instr.wrXramNop 0xA000 0).wf .mbc3 = false ∧
    (Instr.wrMbc1Ramen 0x0000 0).wf .mbc3 = false ∧ (Instr.wrMbc1Romlo 0x2000 0).wf .mbc2 = false ∧
    (Instr.wrMbc1Bankhi 0x4000 0).wf .none = false ∧ (Instr.wrMbc1Mode 0x6000 0).wf .mbc3 = false ∧
    (Instr.wrMbc1Xram 0xA000 0).wf .mbc3 = false ∧ (Instr.wrMbc3Enable 0x0000 0).wf .mbc1 = false ∧
    (Instr.wrMbc3Romb 0x2000 0).wf .mbc1 = false ∧ (Instr.wrMbc3RambRtc 0x4000 0).wf .mbc1 = false ∧
    (Instr.wrMbc3Xram 0xA000 0).wf .mbc1 = false ∧ Instr.saveBase.wf .mbc2 = false ∧
    Instr.saveMbc.wf .none = false ∧ Instr.loadBase.wf .mbc1 = false ∧ Instr.loadMbc.wf .none = false := by decide

/-! ## Words written out bit by bit: OP, ADDR, DATA -/

theorem test_decode_reads :
    decode .mbc1 0b00000000010101000000000000#26 = .ok (.rdRom0 0x0150) ∧
    decode .mbc1 0b00010000000000000000000000#26 = .ok (.rdRomx 0x4000) ∧
    decode .mbc1 0b00100000000000000000000000#26 = .ok (.rdVram 0x8000) ∧
    decode .none 0b00101000000000000000000000#26 = .ok (.rdXramNone 0xA000) ∧
    decode .mbc1 0b00101000000000000000000000#26 = .ok (.rdXram 0xA000) ∧
    decode .mbc1 0b00110000000000000000000000#26 = .ok (.rdWram0 0xC000) ∧
    decode .mbc1 0b00110111111111111100000000#26 = .ok (.rdWramx 0xDFFF) ∧
    decode .mbc1 0b00111000000000000000000000#26 = .ok (.rdEcho 0xE000) ∧
    decode .mbc1 0b00111111101001111100000000#26 = .ok (.rdOam 0xFE9F) ∧
    decode .mbc1 0b00111111101010000000000000#26 = .ok (.rdUnusable 0xFEA0) ∧
    decode .mbc1 0b00111111110000000000000000#26 = .ok (.rdIo 0xFF00) := by decide

theorem test_decode_base_writes :
    decode .mbc3 0b01011000000000000000000001#26 = .ok (.wrRomNop 0x6000 0x01) ∧
    decode .none 0b01001000000000000000000101#26 = .ok (.wrRomNop 0x2000 0x05) ∧
    decode .mbc1 0b01100111111111111110101011#26 = .ok (.wrVram 0x9FFF 0xAB) ∧
    decode .none 0b01101000000000000001010101#26 = .ok (.wrXramNop 0xA000 0x55) ∧
    decode .mbc1 0b01110000000000000000010010#26 = .ok (.wrWram0 0xC000 0x12) ∧
    decode .mbc1 0b01110100000000000000110100#26 = .ok (.wrWramx 0xD000 0x34) ∧
    decode .mbc1 0b01111000000000000000001010#26 = .ok (.wrEcho 0xE000 0x0A) ∧
    decode .mbc1 0b01111111101001111100001000#26 = .ok (.wrOam 0xFE9F 0x08) ∧
    decode .mbc1 0b01111111101100011101011010#26 = .ok (.wrUnusable 0xFEC7 0x5A) ∧
    decode .mbc1 0b01111111111111111111111111#26 = .ok (.wrIo 0xFFFF 0xFF) := by decide

theorem test_decode_controller_writes :
    decode .mbc1 0b01000000000000000000001010#26 = .ok (.wrMbc1Ramen 0x0000 0x0A) ∧
    decode .mbc1 0b01001000000000000000000000#26 = .ok (.wrMbc1Romlo 0x2000 0x00) ∧
    decode .mbc1 0b01010000000000000000000010#26 = .ok (.wrMbc1Bankhi 0x4000 0x02) ∧
    decode .mbc1 0b01011000000000000000000001#26 = .ok (.wrMbc1Mode 0x6000 0x01) ∧
    decode .mbc1 0b01101000000001000001011010#26 = .ok (.wrMbc1Xram 0xA010 0x5A) ∧
    decode .mbc3 0b01000000000000000000001010#26 = .ok (.wrMbc3Enable 0x0000 0x0A) ∧
    decode .mbc3 0b01001000000000000010000101#26 = .ok (.wrMbc3Romb 0x2000 0x85) ∧
    decode .mbc3 0b01010000000000000000001001#26 = .ok (.wrMbc3RambRtc 0x4000 0x09) ∧
    decode .mbc3 0b01101000010010001101110111#26 = .ok (.wrMbc3Xram 0xA123 0x77) := by decide

theorem test_decode_persistence :
    decode .none 0b10000000000000000000000000#26 = .ok .saveBase ∧
    decode .mbc2 0b10000000000000000000000000#26 = .ok .saveMbc ∧
    decode .none 0b11000000000000000000000000#26 = .ok .loadBase ∧
    decode .mbc3 0b11000000000000000000000000#26 = .ok .loadMbc := by decide

/-- L2.1b, d, e. -/
theorem test_decode_refuses_reserved_fields :
    decode .mbc1 0b00000000000000000000000001#26 = .error .reservedField ∧
    decode .mbc1 0b10000000000000000000000001#26 = .error .reservedField ∧
    decode .mbc1 0b11000000010000000000000000#26 = .error .reservedField := by decide

theorem test_encode :
    encode (.rdEcho 0xFDFF) = 0x0FDFF00#26 ∧ encode (.wrMbc1Xram 0xA010 0x5A) = 0x1A0105A#26 ∧
    encode (.wrIo 0xFF40 0x91) = 0x1FF4091#26 ∧ encode .saveMbc = 0x2000000#26 ∧ encode .loadBase = 0x3000000#26 := by
  decide

theorem test_decodeTableWord :
    decodeTableWord 26 0x1200000 = some (.wrMbc1Romlo 0x2000 0x00) ∧ decodeTableWord 32 0x4000000 = none ∧
    decodeTableWord 26 0x0000001 = none := by decide

/-! ## One step of each operation -/

/-- L1.2b's offset. -/
theorem test_rdRom0 : nextHas (exec (.rdRom0 0x0150) (block .mbc1 1)) (fun t => t.response = some 0x50) = true := by
  decide

/-- P1, step 4. -/
theorem test_rdRomx_banked :
    nextHas (exec (.rdRomx 0x4000) { block .mbc1 1 with romBankOffset := 0x84000 })
      (fun t => t.response = some 0x21) = true := by decide

/-- L2.2o. -/
theorem test_rdRomx_unmapped :
    faultsWith (exec (.rdRomx 0x4000) { block .mbc1 1 with romBankOffset := 0x8000 }) (.romUnmapped 0x8000) = true := by
  decide

/-- L2.2e. -/
theorem test_rdVram :
    nextHas (exec (.rdVram 0x9FFF) { block .none 1 with vram := [(0x1FFF, 0xAB)] })
      (fun t => t.response = some 0xAB) = true := by decide

/-- L2.2f. -/
theorem test_rdXramNone :
    nextHas (exec (.rdXramNone 0xBFFF) (block .none 1)) (fun t => t.response = some 0x00) = true := by decide

/-- L1.5a. -/
theorem test_rdXram_closed :
    nextHas (exec (.rdXram 0xA000) { block .mbc1 1 with cartRam := [(0, 0x11)] })
      (fun t => t.response = some 0xFF) = true := by decide

/-- P2, step 10: the CART_RAM path in RTC mode. -/
theorem test_rdXram_rtc_mode :
    nextHas (exec (.rdXram 0xA000) { rtcMode 0x09 with ramBankOffset := 0x2000, cartRam := [(0x2000, 0x11)] })
      (fun t => t.response = some 0x11) = true := by decide

/-- L2.2g. -/
theorem test_rdWram0 :
    nextHas (exec (.rdWram0 0xCFFF) { block .none 1 with wram := [(0x0FFF, 0x13)] })
      (fun t => t.response = some 0x13) = true := by decide

/-- R136's example. -/
theorem test_rdWramx :
    nextHas (exec (.rdWramx 0xDFFF) { block .none 1 with wram := [(0x1FFF, 0x77)] })
      (fun t => t.response = some 0x77) = true := by decide

/-- L1.2c. -/
theorem test_rdEcho_top :
    nextHas (exec (.rdEcho 0xFDFF) (block .mbc1 1)) (fun t => t.response = some 0xFF) = true := by decide

/-- L1.2f: the echo does not read working RAM. -/
theorem test_rdEcho_not_wram :
    nextHas (exec (.rdEcho 0xE000) { block .none 1 with wram := [(0, 0x12)] })
      (fun t => t.response = some 0x00) = true := by decide

/-- R138's example. -/
theorem test_rdOam :
    nextHas (exec (.rdOam 0xFE9F) { block .none 1 with oam := [(0x9F, 0x08)] })
      (fun t => t.response = some 0x08) = true := by decide

/-- L1.1a. -/
theorem test_rdUnusable :
    nextHas (exec (.rdUnusable 0xFEA0) (block .none 1)) (fun t => t.response = some 0xFF) = true := by decide

/-- L2.2j: the byte is a draw, and the next draw differs in its number. -/
theorem test_rdIo :
    nextHas (exec (.rdIo 0xFF00) (block .none 1)) (fun t => t.response.isSome && t.ioDraws == 1) = true := by decide

/-- L2.3a. -/
theorem test_wrRomNop :
    nextHas (exec (.wrRomNop 0x2000 0x05) (block .none 1)) (fun t => t = block .none 1) = true := by decide

/-- L2.2m: the bank offset is added. -/
theorem test_wrVram :
    nextHas (exec (.wrVram 0x8000 0x05)
        { block .none 1 with cfg := { (block .none 1).cfg with enhanced := true }, vramBankOffset := 0x2000 })
      (fun t => t.vram = [(0x2000, 0x05)]) = true := by decide

/-- L2.3b. -/
theorem test_wrXramNop :
    nextHas (exec (.wrXramNop 0xA000 0x55) (block .none 1)) (fun t => t = block .none 1) = true := by decide

/-- R144's example. -/
theorem test_wrWram0 :
    nextHas (exec (.wrWram0 0xC123 0x42) (block .none 1)) (fun t => t.wram = [(0x123, 0x42)]) = true := by decide

/-- R146's example. -/
theorem test_wrWramx :
    nextHas (exec (.wrWramx 0xD000 0x99) (block .none 1)) (fun t => t.wram = [(0x1000, 0x99)]) = true := by decide

/-- L2.3d. -/
theorem test_wrEcho_base :
    nextHas (exec (.wrEcho 0xE000 0x0A) (block .mbc1 1)) (fun t => t = block .mbc1 1) = true := by decide

/-- L2.3f. -/
theorem test_wrEcho_full :
    nextHas (exec (.wrEcho 0xFDFF 0x07)
        { rtcMode 0x08 with cfg := { (block .mbc3 1).cfg with echoReentry := .full } })
      (fun t => t.ramEnabled = false && t.rtcEnabled = false) = true := by decide

/-- R148's example; writing 0x00 over it takes it away again. -/
theorem test_wrOam :
    nextHas (exec (.wrOam 0xFE00 0x10) (block .none 1)) (fun t => t.oam = [(0, 0x10)]) = true ∧
    nextHas (exec (.wrOam 0xFE00 0x00) { block .none 1 with oam := [(0, 0x10)] }) (fun t => t.oam = []) = true := by
  decide

/-- L1.1d. -/
theorem test_wrUnusable :
    nextHas (exec (.wrUnusable 0xFEC7 0x5A) (block .none 1)) (fun t => t = block .none 1) = true := by decide

/-- L2.3g. -/
theorem test_wrIo :
    nextHas (exec (.wrIo 0xFF40 0x91) (block .none 1)) (fun t => t.ioEvents = [⟨0xFF40, 0x91⟩]) = true := by decide

/-- L2.5a. -/
theorem test_wrMbc1Ramen :
    nextHas (exec (.wrMbc1Ramen 0x1FFF 0xFA) (block .mbc1 3)) (fun t => t.ramEnabled) = true := by decide

/-- L2.4b: without a declared bank the gate stays closed. -/
theorem test_wrMbc1Ramen_no_bank :
    nextHas (exec (.wrMbc1Ramen 0x0000 0x0A) (block .mbc1 0)) (fun t => !t.ramEnabled) = true := by decide

/-- L1.3b, last write: the selector keeps 0x20, bank 0x21 is mapped. -/
theorem test_wrMbc1Romlo_alias :
    nextHas (exec (.wrMbc1Romlo 0x2000 0x00) { block .mbc1 3 with romBank := 0x21, romBankOffset := 0x84000 })
      (fun t => t.romBank = 0x20 && t.romBankOffset == 0x84000) = true := by decide

/-- L2.5e: bits 7:5 of the byte are ignored. -/
theorem test_wrMbc1Romlo_low_bits :
    nextHas (exec (.wrMbc1Romlo 0x3FFF 0xE3) (block .mbc1 3))
      (fun t => t.romBank = 0x03 && t.romBankOffset == 0xC000) = true := by decide

/-- L1.4b. -/
theorem test_wrMbc1Bankhi_ram :
    nextHas (exec (.wrMbc1Bankhi 0x4000 0x03) { block .mbc1 3 with romBank := 0x21, romBankOffset := 0x84000 })
      (fun t => t.ramBankOffset == 0x6000 && t.romBank = 0x21 && t.romBankOffset == 0x84000) = true := by decide

/-- L1.4c. -/
theorem test_wrMbc1Bankhi_rom :
    nextHas (exec (.wrMbc1Bankhi 0x5FFF 0x02) { block .mbc1 3 with modeSelect := true })
      (fun t => t.ramBankOffset == 0 && t.romBank = 0x41 && t.romBankOffset == 0x104000) = true := by decide

/-- L2.5k. -/
theorem test_wrMbc1Mode :
    nextHas (exec (.wrMbc1Mode 0x6000 0x03) (block .mbc1 3)) (fun t => t.modeSelect) = true := by decide

/-- L2.5l: only with exactly three declared banks. -/
theorem test_wrMbc1Mode_four_banks :
    nextHas (exec (.wrMbc1Mode 0x6000 0x01) (block .mbc1 4)) (fun t => !t.modeSelect) = true := by decide

/-- L2.5n. -/
theorem test_wrMbc1Xram :
    nextHas (exec (.wrMbc1Xram 0xA000 0x33)
        { block .mbc1 3 with ramEnabled := true, modeSelect := true, ramBankOffset := 0x4000 })
      (fun t => t.cartRam = [(0x4000, 0x33)]) = true := by decide

/-- L2.4e. -/
theorem test_wrMbc1Xram_bounds :
    faultsWith (exec (.wrMbc1Xram 0xA000 0x01) { block .mbc1 1 with ramEnabled := true, ramBankOffset := 0x2000 })
      (.bounds .cartRam 0x2000) = true := by decide

/-- L2.7d. -/
theorem test_wrMbc3Enable :
    nextHas (exec (.wrMbc3Enable 0x0000 0x0A) (block .mbc3 0)) (fun t => !t.ramEnabled && t.rtcEnabled) = true := by
  decide

/-- L2.7a. -/
theorem test_wrMbc3Romb_floor :
    nextHas (exec (.wrMbc3Romb 0x2000 0x80) { block .mbc3 4 with romBankOffset := 0x14000 })
      (fun t => t.romBankOffset == 0x4000) = true := by decide

/-- L2.7b: no MBC1 aliasing. -/
theorem test_wrMbc3Romb_no_alias :
    nextHas (exec (.wrMbc3Romb 0x2000 0x20) (block .mbc3 4)) (fun t => t.romBankOffset == 0x80000) = true := by decide

/-- P2, step 8: the RAM bank offset stays. -/
theorem test_wrMbc3RambRtc_rtc :
    nextHas (exec (.wrMbc3RambRtc 0x4000 0x09)
        { block .mbc3 4 with rtcEnabled := true, ramBankIndex := 1, ramBankOffset := 0x2000 })
      (fun t => t.ramBankIndex == -1 && t.rtcSelect == some 0x09 && t.ramBankOffset == 0x2000) = true := by decide

/-- L2.7m: the select stays. -/
theorem test_wrMbc3RambRtc_ram :
    nextHas (exec (.wrMbc3RambRtc 0x4000 0x00) { rtcMode 0x09 with ramBankOffset := 0x2000 })
      (fun t => t.ramBankIndex == 0 && t.rtcSelect == some 0x09 && t.ramBankOffset == 0) = true := by decide

/-- L2.7j: RTC writes are not gated. -/
theorem test_wrMbc3Xram_rtc :
    nextHas (exec (.wrMbc3Xram 0xB000 0x42) { rtcMode 0x08 with ramEnabled := false, rtcEnabled := false })
      (fun t => t.rtc.b0 = 0x42 && t.ramBankIndex == -1) = true := by decide

/-- L2.7i. -/
theorem test_wrMbc3Xram_unresolved :
    faultsWith (exec (.wrMbc3Xram 0xA000 0x01) (rtcMode 0x0C)) (.rtcUnresolved (some 0x0C)) = true := by decide

/-- L2.8a. -/
theorem test_saveBase :
    nextHas (exec .saveBase { block .none 1 with cfg := { (block .none 1).cfg with hasBattery := true } })
      (fun t => t.errors = [.noPersistence] && t.sink == []) = true := by decide

/-- L1.6a's dump, of four bytes. -/
theorem test_saveMbc :
    nextHas (exec .saveMbc battery) (fun t => t.sink = [0xAA, 0xBB, 0x00, 0x00] && t.errors == []) = true := by decide

/-- L2.6f. -/
theorem test_saveMbc_no_battery :
    nextHas (exec .saveMbc { block .mbc2 1 with errors := [.unsupported] })
      (fun t => t.errors = [.unsupported, .noPersistence] && t.sink == []) = true := by decide

/-- L2.8b. -/
theorem test_loadBase :
    nextHas (exec .loadBase { block .none 1 with source := ⟨true, [1, 2]⟩ })
      (fun t => t.errors = [.noPersistence] && t.cartRam == []) = true := by decide

/-- L1.7b: the old bytes are zeroed. -/
theorem test_loadMbc_short :
    nextHas (exec .loadMbc { battery with source := ⟨true, [0x01]⟩ })
      (fun t => t.cartRam = [(0, 0x01)] && t.errors == [.dataIntegrity]) = true := by decide

/-- L2.8d. -/
theorem test_loadMbc_invalid :
    nextHas (exec .loadMbc { battery with source := ⟨false, [9, 9]⟩ })
      (fun t => t.cartRam = [(0, 0xAA), (1, 0xBB)] && t.errors == [.prematureEnd]) = true := by decide

/-- L2.1k. For contents that break a constraint the reason is the model's choice (log entry 14). -/
theorem test_construct_unsupported_kind (init : InitContents) :
    refusedWith (construct (.other "MBC5") Params.standard init) (.unsupportedKind "MBC5") = true := by
  simp [refusedWith, construct]

/-- L2.1m. -/
theorem test_construct_bad_config :
    refusedWith (construct (.known .mbc1) { Params.standard with wramBankOffsetInit := 0x0800 }
      ⟨[], [], [], [], ⟨0, 0, 0, 0⟩⟩) .badConfig = true := by decide

/-- The word the host places is the next one fetched. -/
theorem test_withFetchWord :
    nextHas (step (State.reset.withFetchWord 26 0x1200005)) (fun t => t.romBankOffset == 0x14000) = true := by decide

/-! ## The hypotheses of the statements are met -/

theorem test_witness_DecodeOfEncode :
    (Instr.wrMbc3RambRtc 0x5FFF 0x0C).wf .mbc3 = true ∧ (Instr.wrRomNop 0x6000 0xFF).wf .mbc3 = true ∧
    (Instr.rdIo 0xFFFF).wf .mbc2 = true ∧ Instr.loadBase.wf .none = true := by decide

theorem test_witness_EncodeOfDecode : ∃ i, decode .mbc3 0x1FFFFFF#26 = .ok i := ⟨.wrIo 0xFFFF 0xFF, by decide⟩

theorem test_witness_ReservedFieldIsRefused :
    ∃ s : State, ∃ r : Request, ∃ rest, s.fault = none ∧ s.refused = false ∧ s.requests = r :: rest ∧
      opField r.word = 0b00 ∧ r.word.toNat % 2 ^ 8 ≠ 0 :=
  ⟨withWord (block .mbc1 1) 0x0000001, _, _, rfl, rfl, rfl, by decide, by decide⟩

theorem test_witness_ReservedFieldIsRefused_save_load :
    (opField (0x2000001#26) = 0b10 ∧ (0x2000001#26).toNat % 2 ^ 24 ≠ 0) ∧
    (opField (0x3FFFF00#26) = 0b11 ∧ (0x3FFFF00#26).toNat % 2 ^ 24 ≠ 0) := by decide

/-- Every row of the read table holds at both ends of its range for each of its kinds. -/
theorem test_witness_ReadTable :
    (readRows.all fun row => row.kinds.all fun k =>
      row.holds k (BitVec.ofNat 16 row.lo) && row.holds k (BitVec.ofNat 16 row.hi)) = true := by decide

theorem test_witness_WriteTable :
    (writeRows.all fun row => row.kinds.all fun k =>
      row.holds k (BitVec.ofNat 16 row.lo) && row.holds k (BitVec.ofNat 16 row.hi)) = true := by decide

theorem test_witness_StepRunsTheDecodedRequest :
    ∃ s : State, ∃ r : Request, ∃ rest i, s.fault = none ∧ s.refused = false ∧ s.requests = r :: rest ∧
      decode s.cfg.kind r.word = .ok i :=
  ⟨withWord (block .mbc1 1) 0x1200005, _, _, .wrMbc1Romlo 0x2000 0x05, rfl, rfl, rfl, by decide⟩

theorem test_witness_RequestsAreTakenInOrder :
    (∃ s t : State, ∃ r : Request, ∃ rest, s.requests = r :: rest ∧ step s = .next t) ∧
    (∃ s : State, s.fault = none ∧ s.refused = false ∧ s.requests = []) := by
  refine ⟨?_, block .mbc1 1, rfl, rfl, rfl⟩
  obtain ⟨t, h, -⟩ := nextHas_exists (r := step (withWord (block .mbc1 1) 0x1200005)) (p := fun _ => true) (by decide)
  exact ⟨_, t, _, _, rfl, h⟩

theorem test_witness_FaultLeavesTheBlockStuck : ∃ s f, step s = .fault f :=
  ⟨withWord { block .mbc1 1 with romBankOffset := 0x8000 } 0x0400000, .romUnmapped 0x8000,
    faultsWith_eq (by decide)⟩

theorem test_witness_RefusalLeavesTheBlockStuck :
    (∃ s, step s = .refused .reservedField) ∧ (∃ s, step s = .refused .stopped) :=
  ⟨⟨withWord (block .mbc1 1) 0x0000001, refusedWith_eq (by decide)⟩,
    ⟨{ block .mbc1 1 with refused := true }, refusedWith_eq (by decide)⟩⟩

/-- Both ends of every range that a statement assumes. -/
theorem test_witness_ranges :
    (within 0x0000 0x0000 0x3FFF ∧ within 0x3FFF 0x0000 0x3FFF) ∧
    (within 0x4000 0x4000 0x7FFF ∧ within 0x7FFF 0x4000 0x7FFF) ∧
    (within 0x8000 0x8000 0x9FFF ∧ within 0x9FFF 0x8000 0x9FFF) ∧
    (within 0xA000 0xA000 0xBFFF ∧ within 0xBFFF 0xA000 0xBFFF) ∧
    (within 0xC000 0xC000 0xCFFF ∧ within 0xCFFF 0xC000 0xCFFF) ∧
    (within 0xD000 0xD000 0xDFFF ∧ within 0xDFFF 0xD000 0xDFFF) ∧
    (within 0xE000 0xE000 0xFDFF ∧ within 0xFDFF 0xE000 0xFDFF) := by
  unfold within
  decide

theorem test_witness_ranges_of_tables :
    (within 0xFE00 0xFE00 0xFE9F ∧ within 0xFE9F 0xFE00 0xFE9F) ∧
    (within 0xFEA0 0xFEA0 0xFEFF ∧ within 0xFEFF 0xFEA0 0xFEFF) ∧
    (within 0xFF00 0xFF00 0xFFFF ∧ within 0xFFFF 0xFF00 0xFFFF) ∧
    (within 0x0000 0x0000 0x7FFF ∧ within 0x7FFF 0x0000 0x7FFF) ∧
    (within 0x0000 0x0000 0x1FFF ∧ within 0x1FFF 0x0000 0x1FFF) ∧
    (within 0x2000 0x2000 0x3FFF ∧ within 0x3FFF 0x2000 0x3FFF) ∧
    (within 0x4000 0x4000 0x5FFF ∧ within 0x5FFF 0x4000 0x5FFF) ∧
    (within 0x6000 0x6000 0x7FFF ∧ within 0x7FFF 0x6000 0x7FFF) ∧
    (¬ within 0x9FFF 0xA000 0xBFFF ∧ ¬ within 0xC000 0xA000 0xBFFF) := by
  unfold within
  decide

theorem test_witness_RomReads_answered :
    (∃ s : State, ∃ b, romAnswer s.cfg.rom ((0x3FFF : Addr).toNat) = some b) ∧
    (∃ s : State, ∃ b, romAnswer s.cfg.rom (s.romBankOffset + ((0x7FFF : Addr).toNat - 0x4000)) = some b) :=
  ⟨⟨block .mbc1 1, 0xFF, by decide⟩, ⟨block .mbc1 1, 0xFE, by decide⟩⟩

theorem test_witness_RomReads_unmapped :
    (∃ s : State, romAnswer s.cfg.rom ((0x3FFE : Addr).toNat) = none) ∧
    (∃ s : State, romAnswer s.cfg.rom (s.romBankOffset + ((0x4000 : Addr).toNat - 0x4000)) = none) :=
  ⟨⟨block .mbc1 1, by decide⟩, ⟨{ block .mbc1 1 with romBankOffset := 0x8000 }, by decide⟩⟩

theorem test_witness_EchoReadsAreReadsOfTheTarget :
    (∃ s : State, ∃ b, romAnswer s.cfg.rom ((0xFDFF : Addr).toNat - 0xE000) = some b) ∧
    (∃ s : State, romAnswer s.cfg.rom ((0xE001 : Addr).toNat - 0xE000) = none) :=
  ⟨⟨block .mbc1 1, 0xFF, by decide⟩, ⟨block .mbc1 1, by decide⟩⟩

/-- Both sides of the bounds of video and working RAM: an ordinary block reads its last byte, a state with a bank
offset at the length faults at once. -/
theorem test_witness_bounds_of_video_and_working_ram :
    (∃ s : State, s.vramBankOffset + ((0x9FFF : Addr).toNat - 0x8000) < (if s.cfg.enhanced then 0x4000 else 0x2000)) ∧
    (∃ s : State, ¬ s.vramBankOffset + ((0x8000 : Addr).toNat - 0x8000) < (if s.cfg.enhanced then 0x4000 else 0x2000)) ∧
    (∃ s : State, s.wramBankOffset + ((0xDFFF : Addr).toNat - 0xD000) < (if s.cfg.enhanced then 0x8000 else 0x2000)) ∧
    (∃ s : State,
      ¬ s.wramBankOffset + ((0xD000 : Addr).toNat - 0xD000) < (if s.cfg.enhanced then 0x8000 else 0x2000)) :=
  ⟨⟨block .none 1, by decide⟩, ⟨{ block .none 1 with vramBankOffset := 0x2000 }, by decide⟩,
    ⟨block .none 1, by decide⟩, ⟨{ block .none 1 with wramBankOffset := 0x2000 }, by decide⟩⟩

theorem test_witness_EchoWritesReenterAsConfigured :
    (∃ s : State, s.cfg.echoReentry = .base) ∧ (∃ s : State, s.cfg.echoReentry = .full) :=
  ⟨⟨block .mbc1 1, rfl⟩,
    ⟨{ block .mbc1 1 with cfg := { (block .mbc1 1).cfg with echoReentry := .full } }, rfl⟩⟩

/-- The three branches of the gated read and write: closed, open in bounds, open out of bounds. -/
theorem test_witness_CartRamReadIsGated :
    (∃ s : State, s.cfg.kind ≠ .none ∧ (s.cfg.kind ≠ .mbc3 ∨ s.cfg.rtcReadPath = .cartRam ∨ s.ramBankIndex ≠ -1) ∧
      s.ramEnabled = false) ∧
    (∃ s : State, s.cfg.kind ≠ .none ∧ (s.cfg.kind ≠ .mbc3 ∨ s.cfg.rtcReadPath = .cartRam ∨ s.ramBankIndex ≠ -1) ∧
      s.ramEnabled = true ∧ s.ramBankOffset + ((0xBFFF : Addr).toNat - 0xA000) < s.cfg.cartRamSize) ∧
    (∃ s : State, s.cfg.kind ≠ .none ∧ (s.cfg.kind ≠ .mbc3 ∨ s.cfg.rtcReadPath = .cartRam ∨ s.ramBankIndex ≠ -1) ∧
      s.ramEnabled = true ∧ s.cfg.cartRamSize ≤ s.ramBankOffset + ((0xA000 : Addr).toNat - 0xA000)) :=
  ⟨⟨block .mbc2 1, by decide⟩, ⟨rtcMode 0x08, by decide⟩,
    ⟨{ block .mbc1 1 with ramEnabled := true, ramBankOffset := 0x2000 }, by decide⟩⟩

theorem test_witness_CartRamWriteIsGated :
    (∃ s : State, s.cfg.kind = .mbc1 ∧ s.ramEnabled = false) ∧
    (∃ s : State, s.cfg.kind = .mbc1 ∧ s.ramEnabled = true ∧
      s.ramBankOffset + ((0xBFFF : Addr).toNat - 0xA000) < s.cfg.cartRamSize) ∧
    (∃ s : State, s.cfg.kind = .mbc3 ∧ s.ramBankIndex ≠ -1 ∧ s.ramEnabled = true ∧
      s.ramBankOffset + ((0xBFFF : Addr).toNat - 0xA000) < s.cfg.cartRamSize) ∧
    (∃ s : State, s.cfg.kind = .mbc3 ∧ s.ramBankIndex ≠ -1 ∧ s.ramEnabled = true ∧
      s.cfg.cartRamSize ≤ s.ramBankOffset + ((0xA000 : Addr).toNat - 0xA000)) :=
  ⟨⟨block .mbc1 1, by decide⟩, ⟨{ block .mbc1 1 with ramEnabled := true }, by decide⟩,
    ⟨{ block .mbc3 4 with ramEnabled := true, ramBankIndex := 3, ramBankOffset := 0x6000 }, by decide⟩,
    ⟨{ block .mbc3 1 with ramEnabled := true, ramBankIndex := 1, ramBankOffset := 0x2000 }, by decide⟩⟩

theorem test_witness_RtcModeReadFollowsTheReadPath :
    (∃ s : State, ∃ i, s.cfg.kind = .mbc3 ∧ s.cfg.rtcReadPath = .rtcFile ∧ s.ramBankIndex = -1 ∧
      rtcIndex s.cfg.rtcIndexMap s.rtcSelect = some i) ∧
    (∃ s : State, s.cfg.kind = .mbc3 ∧ s.cfg.rtcReadPath = .rtcFile ∧ s.ramBankIndex = -1 ∧
      rtcIndex s.cfg.rtcIndexMap s.rtcSelect = none) ∧
    (∃ s : State, s.cfg.kind = .mbc3 ∧ (s.cfg.rtcReadPath = .cartRam ∨ s.ramBankIndex ≠ -1) ∧ s.ramEnabled = true ∧
      s.ramBankOffset + ((0xBFFF : Addr).toNat - 0xA000) < s.cfg.cartRamSize) ∧
    (∃ s : State, s.cfg.kind = .mbc3 ∧ (s.cfg.rtcReadPath = .cartRam ∨ s.ramBankIndex ≠ -1) ∧
      s.cfg.rtcReadPath = .rtcFile ∧ s.ramEnabled = false) :=
  ⟨⟨{ rtcMode 0x0B with cfg := { (rtcMode 0x0B).cfg with rtcReadPath := .rtcFile } }, 3, by decide⟩,
    ⟨{ rtcMode 0x0C with cfg := { (rtcMode 0x0C).cfg with rtcReadPath := .rtcFile } }, by decide⟩,
    ⟨{ rtcMode 0x08 with ramBankOffset := 0x6000 }, by decide⟩,
    ⟨{ block .mbc3 4 with cfg := { (block .mbc3 4).cfg with rtcReadPath := .rtcFile } }, by decide⟩⟩

theorem test_witness_ClosedGateIsolatesCartRam :
    (∃ s : State, s.ramEnabled = false ∧ busRequestPending s ∧ ∃ t, step s = .next t) ∧
    (∃ s : State, s.ramEnabled = false ∧ busRequestPending s ∧ ∃ f, step s = .fault f) ∧
    (∃ s : State, s.ramEnabled = false ∧ busRequestPending s ∧ ∃ x, step s = .refused x) := by
  refine ⟨⟨withWord (block .mbc1 1) 0x1A00055, rfl, ⟨_, _, rfl, by decide⟩, ?_⟩,
    ⟨withWord { block .mbc1 1 with romBankOffset := 0x8000 } 0x0400000, rfl, ⟨_, _, rfl, by decide⟩,
      .romUnmapped 0x8000, faultsWith_eq (by decide)⟩,
    ⟨withWord (block .mbc1 1) 0x0A00001, rfl, ⟨_, _, rfl, by decide⟩, .reservedField, refusedWith_eq (by decide)⟩⟩
  obtain ⟨t, h, -⟩ := nextHas_exists (r := step (withWord (block .mbc1 1) 0x1A00055)) (p := fun _ => true) (by decide)
  exact ⟨t, h⟩

theorem test_witness_Mbc1BankHighWrite :
    (∃ s : State, s.modeSelect = false) ∧ (∃ s : State, s.modeSelect = true) :=
  ⟨⟨block .mbc1 3, rfl⟩, ⟨{ block .mbc1 3 with modeSelect := true }, rfl⟩⟩

/-- The branches of the select write at the ends of their ranges: 0x08 and 0x0C enabled, 0x03, and the ignored
0x04, 0x07, 0x0D and, not enabled, 0x08. -/
theorem test_witness_Mbc3SelectWrite :
    nextHas (exec (.wrMbc3RambRtc 0x4000 0x08) { block .mbc3 4 with rtcEnabled := true })
      (fun t => t.ramBankIndex == -1) = true ∧
    nextHas (exec (.wrMbc3RambRtc 0x5FFF 0x0C) { block .mbc3 4 with rtcEnabled := true })
      (fun t => t.rtcSelect == some 0x0C) = true ∧
    nextHas (exec (.wrMbc3RambRtc 0x4000 0x03) (block .mbc3 4)) (fun t => t.ramBankOffset == 0x6000) = true ∧
    ([0x04, 0x07, 0x0D, 0xFF].all fun v => nextHas (exec (.wrMbc3RambRtc 0x4000 v)
      { block .mbc3 4 with rtcEnabled := true }) (fun t => t.ramBankIndex == 0 && t.rtcSelect == none)) = true ∧
    nextHas (exec (.wrMbc3RambRtc 0x4000 0x08) (block .mbc3 4)) (fun t => t = block .mbc3 4) = true := by decide

theorem test_witness_Mbc3RtcWrite :
    (∃ s : State, ∃ i, s.ramBankIndex = -1 ∧ rtcIndex s.cfg.rtcIndexMap s.rtcSelect = some i) ∧
    (∃ s : State, s.ramBankIndex = -1 ∧ rtcIndex s.cfg.rtcIndexMap s.rtcSelect = none) :=
  ⟨⟨rtcMode 0x0B, 3, by decide⟩, ⟨rtcMode 0x0C, by decide⟩⟩

theorem test_witness_RtcFileIsNotObserved :
    ∃ s : State, s.cfg.rtcReadPath = .cartRam ∧ s.ramBankIndex = -1 ∧ ∃ t, step s = .next t := by
  obtain ⟨t, h, -⟩ := nextHas_exists (r := step (withWord (rtcMode 0x08) 0x1A00055)) (p := fun _ => true) (by decide)
  exact ⟨_, rfl, rfl, t, h⟩

theorem test_witness_RtcFileIsNotObserved_stops :
    (∃ s : State, s.cfg.rtcReadPath = .cartRam ∧ ∃ f, step s = .fault f) ∧
    (∃ s : State, s.cfg.rtcReadPath = .cartRam ∧ ∃ x, step s = .refused x) :=
  ⟨⟨withWord (rtcMode 0x0C) 0x1A00055, rfl, _, faultsWith_eq (f := .rtcUnresolved (some 0x0C)) (by decide)⟩,
    ⟨withWord (rtcMode 0x0C) 0x0A00001, rfl, _, refusedWith_eq (x := .reservedField) (by decide)⟩⟩

theorem test_witness_SaveDumpsCartRam :
    (∃ k : Kind, k ≠ .none) ∧ (∃ s : State, s.cfg.kind ≠ .none ∧ s.cfg.hasBattery = true ∧ 3 < s.cfg.cartRamSize) ∧
    (∃ s : State, s.cfg.hasBattery = false) :=
  ⟨⟨.mbc2, by decide⟩, ⟨battery, by decide⟩, ⟨block .mbc1 1, rfl⟩⟩

/-- A source of no byte, one byte short, of the whole length, and longer. -/
theorem test_witness_LoadFillsCartRam :
    (∃ s : State, s.cfg.hasBattery = true ∧ s.source.valid = false) ∧
    (∃ s : State, s.cfg.kind ≠ .none ∧ s.cfg.hasBattery = true ∧ s.source.valid = true ∧
      s.source.bytes.length = 0) ∧
    (∃ s : State, s.cfg.kind ≠ .none ∧ s.cfg.hasBattery = true ∧ s.source.valid = true ∧
      s.source.bytes.length + 1 = s.cfg.cartRamSize) ∧
    (∃ s : State, s.cfg.kind ≠ .none ∧ s.cfg.hasBattery = true ∧ s.source.valid = true ∧
      s.source.bytes.length = s.cfg.cartRamSize) ∧
    (∃ s : State, s.cfg.kind ≠ .none ∧ s.cfg.hasBattery = true ∧ s.source.valid = true ∧
      s.source.bytes.length = s.cfg.cartRamSize + 1) :=
  ⟨⟨battery, by decide⟩, ⟨{ battery with source := ⟨true, []⟩ }, by decide⟩,
    ⟨{ battery with source := ⟨true, [1, 2, 3]⟩ }, by decide⟩,
    ⟨{ battery with source := ⟨true, [1, 2, 3, 4]⟩ }, by decide⟩,
    ⟨{ battery with source := ⟨true, [1, 2, 3, 4, 5]⟩ }, by decide⟩⟩

theorem test_witness_SaveLoadRoundTrip :
    (∃ s : State, s.cfg.kind ≠ .none ∧ s.cfg.hasBattery = true ∧ s.BufferOk .cartRam ∧
      ∃ u : State, u.cfg = s.cfg ∧ u.cartRam ≠ s.cartRam ∧ u.source = ⟨true, [0xAA, 0xBB, 0x00, 0x00]⟩) ∧
    (∃ s : State, s.cfg.hasBattery = false) :=
  ⟨⟨battery, by decide, rfl, ⟨by decide, by decide⟩,
      { battery with cartRam := [], source := ⟨true, [0xAA, 0xBB, 0x00, 0x00]⟩ }, rfl, by decide, rfl⟩,
    ⟨block .mbc1 1, rfl⟩⟩

/-- Launch contents of the sizes a construction asks for. -/
def contents (vram wram oam cartRam : Nat) : InitContents :=
  ⟨List.replicate vram 0x5A, List.replicate wram 0xA5, List.replicate oam 0x11, List.replicate cartRam 0x77,
    ⟨1, 2, 3, 4⟩⟩

/-- L2.1o: the greatest offsets of an ENHANCED block. -/
theorem test_witness_ConstructionValues :
    ∃ (k : Kind) (p : Params) (init : InitContents), constraints k p init ∧ k = .mbc2 ∧ p.enhanced = true := by
  refine ⟨.mbc2, { Params.standard with enhanced := true, wramBankOffsetInit := 0x7000, vramBankOffsetInit := 0x2000 },
    contents 0x4000 0x8000 160 0x6000, ?_, rfl, rfl⟩
  simp only [constraints, contents, Params.standard, List.length_replicate]
  decide

/-- L2.1l: one page beyond the limit breaks a constraint. -/
theorem test_witness_ConstructionRefusals :
    ∃ (k : Kind) (p : Params) (init : InitContents), ¬ constraints k p init ∧ p.wramBankOffsetInit = 0x2000 := by
  refine ⟨.mbc1, { Params.standard with wramBankOffsetInit := 0x2000 }, contents 0x2000 0x2000 160 0x6000, ?_, rfl⟩
  simp [constraints, Params.standard]

theorem test_witness_ConstructionEstablishesInvariant :
    ∃ (k : KindName) (p : Params) (init : InitContents) (s : State), construct k p init = .next s := by
  refine ⟨.known .mbc3, Params.standard, contents 0x2000 0x2000 160 0x6000,
    built ⟨Params.standard, .mbc3⟩ (contents 0x2000 0x2000 160 0x6000), ?_⟩
  have h : configOk ⟨Params.standard, .mbc3⟩ (contents 0x2000 0x2000 160 0x6000) = true := by
    simp only [configOk, contents, List.length_replicate]
    decide
  simp [construct, h]

/-- A block of the tests meets the invariant: an MBC3 block in RTC mode with a write of 0x55 to 0xA000 pending. -/
theorem test_rtcMode_inv : (withWord (rtcMode 0x0C) 0x1A00055).Inv where
  buffers := by intro b; cases b <;> exact ⟨by decide, by decide⟩
  wramOffset := by decide
  vramOffset := by decide
  romOffset := by decide
  ramOffset := by decide
  mbc1Mapped := by decide
  mbc3Bank := by decide
  mbc3Select := by
    intro _
    refine ⟨fun _ => by decide, fun v h => ?_⟩
    cases h
    decide
  fixedKinds := by decide
  modeCapable := by decide
  gateCapable := by decide
  unsupportedOnce := by decide

/-- An MBC1 block with the gate open over one bank and the RAM bank beyond it, a read of 0xA000 pending. -/
theorem test_open_gate_inv :
    (withWord { block .mbc1 1 with ramEnabled := true, ramBankOffset := 0x2000 } 0x0A00000).Inv where
  buffers := by intro b; cases b <;> exact ⟨by decide, by decide⟩
  wramOffset := by decide
  vramOffset := by decide
  romOffset := by decide
  ramOffset := by decide
  mbc1Mapped := by decide
  mbc3Bank := by decide
  mbc3Select := by intro h; cases h
  fixedKinds := by decide
  modeCapable := by decide
  gateCapable := by decide
  unsupportedOnce := by decide

/-- An MBC2 block with a write of 0x12 to 0xC000 pending. -/
theorem test_mbc2_inv : (withWord { block .mbc2 1 with errors := [.unsupported] } 0x1C00012).Inv where
  buffers := by intro b; cases b <;> exact ⟨by decide, by decide⟩
  wramOffset := by decide
  vramOffset := by decide
  romOffset := by decide
  ramOffset := by decide
  mbc1Mapped := by decide
  mbc3Bank := by decide
  mbc3Select := by intro h; cases h
  fixedKinds := by decide
  modeCapable := by decide
  gateCapable := by decide
  unsupportedOnce := by decide

/-- The states of the invariant that RomReadsReturnTheCollaboratorsByte, BufferReadsReturnTheMappedByte and
CartRamReadIsGated speak of, with an address at the top of the window. -/
theorem test_witness_reads_of_the_invariant :
    ∃ s : State, s.Inv ∧ s.cfg.kind = .mbc2 ∧ s.romBankOffset + ((0x7FFF : Addr).toNat - 0x4000) = 0x7FFF ∧
      s.vramBankOffset + ((0x9FFF : Addr).toNat - 0x8000) = 0x1FFF ∧
      s.wramBankOffset + ((0xDFFF : Addr).toNat - 0xD000) = 0x1FFF :=
  ⟨_, test_mbc2_inv, rfl, by decide, by decide, by decide⟩

/-- A step that answers a next state, for the statements about every step: ConfigurationIsFixed, OnlyReadsRespond,
DiagnosticsAreAppendedBySaveAndLoadOnly and RegistersChangeOnlyThroughTheirWindows. -/
theorem test_witness_every_step :
    ∃ s t : State, ∃ r : Request, ∃ rest, s.requests = r :: rest ∧ s.cfg.echoReentry = .base ∧ step s = .next t := by
  obtain ⟨t, h, -⟩ := nextHas_exists (r := step (withWord (block .mbc1 3) 0x1400003)) (p := fun _ => true) (by decide)
  exact ⟨_, t, _, _, rfl, rfl, h⟩

theorem test_witness_Mbc2StubBehaviour :
    (∃ s : State, s.Inv ∧ s.cfg.kind = .mbc2) ∧ (∃ s t : State, s.cfg.kind = .mbc2 ∧ step s = .next t) := by
  refine ⟨⟨_, test_mbc2_inv, rfl⟩, ?_⟩
  obtain ⟨t, h, -⟩ := nextHas_exists (r := step (withWord (block .mbc2 1) 0x100000A)) (p := fun _ => true) (by decide)
  exact ⟨_, t, rfl, h⟩

/-- The step stores a byte of working RAM. -/
theorem test_witness_StepKeepsInvariant : ∃ s t : State, s.Inv ∧ step s = .next t ∧ t.wram = [(0, 0x12)] := by
  obtain ⟨t, h, ht⟩ := nextHas_exists
    (r := step (withWord { block .mbc2 1 with errors := [.unsupported] } 0x1C00012))
    (p := fun t => t.wram = [(0, 0x12)]) (by decide)
  exact ⟨_, t, test_mbc2_inv, h, of_decide_eq_true ht⟩

/-- A block with no controller and a read of the ROM hole at 0x0001 pending. -/
theorem test_rom_hole_inv : (withWord (block .none 1) 0x0000100).Inv where
  buffers := by intro b; cases b <;> exact ⟨by decide, by decide⟩
  wramOffset := by decide
  vramOffset := by decide
  romOffset := by decide
  ramOffset := by decide
  mbc1Mapped := by decide
  mbc3Bank := by decide
  mbc3Select := by intro h; cases h
  fixedKinds := by decide
  modeCapable := by decide
  gateCapable := by decide
  unsupportedOnce := by decide

/-- Each of the three faults from a state of the invariant. -/
theorem test_witness_FaultsOfTheInvariant :
    (∃ s : State, s.Inv ∧ s.fault = none ∧ step s = .fault (.romUnmapped 0x0001)) ∧
    (∃ s : State, s.Inv ∧ s.fault = none ∧ step s = .fault (.bounds .cartRam 0x2000)) ∧
    (∃ s : State, s.Inv ∧ s.fault = none ∧ step s = .fault (.rtcUnresolved (some 0x0C))) :=
  ⟨⟨_, test_rom_hole_inv, rfl, faultsWith_eq (by decide)⟩,
    ⟨_, test_open_gate_inv, rfl, faultsWith_eq (by decide)⟩, ⟨_, test_rtcMode_inv, rfl, faultsWith_eq (by decide)⟩⟩

/-- Under BASE, each register changes in some step: the gates, the ROM bank and mode of MBC1, the RAM bank. -/
theorem test_witness_RegistersChange_mbc1 :
    nextHas (step (withWord (block .mbc1 3) 0x100000A)) (fun t => t.ramEnabled) = true ∧
    nextHas (step (withWord (block .mbc1 3) 0x1200005)) (fun t => t.romBank = 0x05 && t.romBankOffset == 0x14000) = true ∧
    nextHas (step (withWord (block .mbc1 3) 0x1400002)) (fun t => t.ramBankOffset == 0x4000) = true ∧
    nextHas (step (withWord { block .mbc1 3 with modeSelect := true } 0x1400002)) (fun t => t.romBank = 0x41) = true ∧
    nextHas (step (withWord (block .mbc1 3) 0x1600001)) (fun t => t.modeSelect) = true := by decide

theorem test_witness_RegistersChange_mbc3 :
    nextHas (step (withWord (block .mbc3 4) 0x100000A)) (fun t => t.rtcEnabled) = true ∧
    nextHas (step (withWord (block .mbc3 4) 0x1200005)) (fun t => t.romBankOffset == 0x14000) = true ∧
    nextHas (step (withWord (block .mbc3 4) 0x1400001)) (fun t => t.ramBankIndex == 1 && t.ramBankOffset == 0x2000) = true ∧
    nextHas (step (withWord (rtcMode 0x09) 0x1A00055)) (fun t => t.rtc.b1 = 0x55) = true := by decide

theorem test_witness_ReadsChangeNoState :
    (∃ s t : State, ∃ r : Request, ∃ rest, s.requests = r :: rest ∧ opField r.word = 0b00 ∧ step s = .next t) ∧
    (∃ s t : State, ∃ r q : Request, ∃ rest, s.requests = r :: q :: rest ∧ opField r.word = 0b00 ∧
      (addrField r.word).toNat < 0xFF00 ∧ q.word = r.word ∧ step s = .next t) := by
  have h : nextHas (step { block .mbc1 1 with
      requests := [⟨0x0FEFF00, ⟨true, []⟩, []⟩, ⟨0x0FEFF00, ⟨true, []⟩, []⟩] }) (fun _ => true) = true := by decide
  obtain ⟨t, h, -⟩ := nextHas_exists h
  exact ⟨⟨_, t, _, _, rfl, by decide, h⟩, ⟨_, t, _, _, _, rfl, by decide, by decide, rfl, h⟩⟩

/-- The four ends a request can have for the response and the log. -/
theorem test_witness_responses_and_diagnostics :
    nextHas (step (withWord (block .none 1) 0x0FEA000)) (fun t => t.response.isSome && t.errors == []) = true ∧
    nextHas (step (withWord (block .none 1) 0x1C00012)) (fun t => t.response.isNone && t.errors == []) = true ∧
    nextHas (step (withWord (block .none 1) 0x2000000))
      (fun t => t.response.isNone && t.errors == [.noPersistence] && t.sink == [0x7E]) = true ∧
    nextHas (step (withWord battery 0x3000000))
      (fun t => t.response.isNone && t.errors == [.dataIntegrity]) = true := by decide

/-- Every address decodes, so the hypotheses of RequestsAreTheBusAccesses are met. -/
theorem test_witness_bus_requests :
    (∃ s : State, ∃ i, decode s.cfg.kind (requestWord 0b00 0xBFFF 0) = .ok i) ∧
    (∃ s : State, ∃ i, decode s.cfg.kind (requestWord 0b01 0xFFFF 0xFF) = .ok i) :=
  ⟨⟨block .mbc3 4, .rdXram 0xBFFF, by decide⟩, ⟨block .none 0, .wrIo 0xFFFF 0xFF, by decide⟩⟩

/-- L2.2k: with the working-RAM bank offset 0, 0xD005 and 0xC005 are one byte; 0xC006 is another. -/
theorem test_witness_StorageReadSeesTheLastWrite :
    ∃ s t w : State, storagePlace s 0xD005 = some (.wram, 5) ∧ storagePlace s 0xC005 = some (.wram, 5) ∧
      storagePlace s 0xC006 = some (.wram, 6) ∧ storagePlace s 0xBFFF = some (.cartRam, 0x7FFF) ∧
      busWrite 0xD005 0x42 s = .next t ∧ busRead 0xC005 s = .next w := by
  have h1 : nextHas (busWrite 0xD005 0x42
      { block .mbc3 4 with wramBankOffset := 0, ramEnabled := true, ramBankIndex := 3, ramBankOffset := 0x6000 })
      (fun _ => true) = true := by decide
  have h2 : nextHas (busRead 0xC005
      { block .mbc3 4 with wramBankOffset := 0, ramEnabled := true, ramBankIndex := 3, ramBankOffset := 0x6000 })
      (fun _ => true) = true := by decide
  obtain ⟨t, h1, -⟩ := nextHas_exists h1
  obtain ⟨w, h2, -⟩ := nextHas_exists h2
  exact ⟨_, t, w, by decide, by decide, by decide, by decide, h1, h2⟩

theorem test_witness_BankSwitchIsSeenByTheNextRead :
    (∃ s : State, ∃ v x : Byte, romAnswer s.cfg.rom ((if v.toNat % 128 = 0 then 1 else v.toNat % 128) * 0x4000 +
      ((0x7FFF : Addr).toNat - 0x4000)) = some x) ∧
    (∃ s : State, ∃ v x : Byte, ∃ n, n = s.romBank.toNat / 32 * 32 + v.toNat % 32 ∧
      romAnswer s.cfg.rom ((if n % 32 = 0 then n + 1 else n) * 0x4000 + ((0x4000 : Addr).toNat - 0x4000)) = some x) :=
  ⟨⟨block .mbc3 4, 0x80, 0xFE, by decide⟩, ⟨{ block .mbc1 3 with romBank := 0x21 }, 0x00, 0x21, 0x20, by decide⟩⟩

end Sys2Proof.Tests
end

section
open Sys2Proof.Claims

namespace Sys2Proof.Machine

/-! # The statements of spec/10_state.md

## What a step can do, in two kinds of update

`Effect` says the next state of each operation. The invariant and the frames of spec/10_state.md need less: whether an
operation leaves the bank-controller registers alone, and if not, which window of R52 its write was to. -/

/-! ### A step, case by case -/

theorem step_of_fault {s : State} {f : Fault} (hf : s.fault = some f) : step s = .fault f := by
  simp [step, fetch, hf]

theorem step_of_refused {s : State} (hf : s.fault = none) (hr : s.refused = true) :
    step s = .refused .stopped := by
  simp [step, fetch, hf, hr]

theorem step_of_idle {s : State} (hf : s.fault = none) (hr : s.refused = false) (hq : s.requests = []) :
    step s = .next s := by
  simp [step, fetch, hf, hr, hq]

theorem step_of_rejected {s : State} {r : Request} {rest : List Request} {e : DecodeError} (hf : s.fault = none)
    (hr : s.refused = false) (hq : s.requests = r :: rest) (hd : decode s.cfg.kind r.word = .error e) :
    step s = .refused (refusalOf e) := by
  simp [step, fetch, hf, hr, hq, hd]

theorem step_of_run {s : State} {r : Request} {rest : List Request} {i : Instr} (hf : s.fault = none)
    (hr : s.refused = false) (hq : s.requests = r :: rest) (hd : decode s.cfg.kind r.word = .ok i) :
    step s = exec i (s.accept r rest) := by
  simp [step, fetch, hf, hr, hq, hd]

/-- A word that decodes spells an operation the kind has, and is that operation's word. -/
theorem decode_sound {k : Kind} {w : ReqWord} {i : Instr} (h : decode k w = .ok i) :
    i.wf k = true ∧ encode i = w := by
  have hw := requestWord_fields w
  unfold decode at h
  split at h
  · rename_i hop
    split at h <;> cases h
    rename_i hd
    rw [hop, hd] at hw
    exact (decodeRead_wf k (addrField w)).imp_right (·.trans hw)
  · split at h
    · rename_i hop
      cases h
      rw [hop] at hw
      exact (decodeWrite_wf k (addrField w) (dataField w)).imp_right (·.trans hw)
    · split at h
      · rename_i hnr hnw hz
        rw [hz.1, hz.2] at hw
        split at h <;> rename_i hop
        · rw [hop] at hw
          cases k <;> cases h <;> exact ⟨rfl, hw⟩
        · rw [(((opField_cases w).resolve_left hnr).resolve_left hnw).resolve_left hop] at hw
          cases k <;> cases h <;> exact ⟨rfl, hw⟩
      · cases h

/-- The kind and the window of a row that one kind has. -/
theorem kind_and_window {k k' : Kind} {a : Addr} {lo hi : Nat} (h : (decide (k = k') && a.within lo hi) = true) :
    k = k' ∧ within a lo hi := by
  simpa [Addr.within, within] using h

/-! ### The two kinds of update -/

/-- An update that leaves every bank-controller register alone. -/
inductive PlainUpdate (s : State) : State → Prop
  | same : PlainUpdate s s
  | respond (v : Byte) : PlainUpdate s (s.respond v)
  | ioRead (a : Addr) : PlainUpdate s (ioRead s a)
  | ioWrite (a : Addr) (v : Byte) : PlainUpdate s (ioWrite s a v)
  | store {b : Buf} {i : Nat} (v : Byte) (hi : i < bufSize s.cfg b) :
      PlainUpdate s (s.putBuffer b ((s.buffer b).write i v))
  | report {e : ErrorKind} (he : e ≠ .unsupported) : PlainUpdate s (s.report e)
  | dump (out : List Byte) : PlainUpdate s { s with sink := out }
  | fill : PlainUpdate s (fillCartRam s)
  | fillShort : PlainUpdate s ((fillCartRam s).report .dataIntegrity)

/-- The update of a bank-controller register that a WRITE of `v` to `a` makes, with the window and the kind of R52,
or through the echo under `ECHO_REENTRY = FULL`. -/
inductive RegisterUpdate (s : State) (a : Addr) (v : Byte) : State → Prop
  | mbc1Gate (hk : s.cfg.kind = .mbc1) (ha : within a 0x0000 0x1FFF) : RegisterUpdate s a v (mbc1RamEnable v s)
  | mbc1RomLow (hk : s.cfg.kind = .mbc1) (ha : within a 0x2000 0x3FFF) :
      RegisterUpdate s a v (setMbc1RomBank (withLowBits s.romBank v) s)
  | mbc1RomHigh (hk : s.cfg.kind = .mbc1) (ha : within a 0x4000 0x5FFF) (hm : s.modeSelect = true) :
      RegisterUpdate s a v (setMbc1RomBank (withHighBits s.romBank v) s)
  | mbc1RamBank (hk : s.cfg.kind = .mbc1) (ha : within a 0x4000 0x5FFF) (hm : s.modeSelect = false) :
      RegisterUpdate s a v { s with ramBankOffset := mbc1RamOffset v }
  | mbc1Mode (hk : s.cfg.kind = .mbc1) (ha : within a 0x6000 0x7FFF) (hc : s.cfg.ramBankCount = 3) :
      RegisterUpdate s a v { s with modeSelect := modeTest v }
  | mbc3Gate (hk : s.cfg.kind = .mbc3) (ha : within a 0x0000 0x1FFF) : RegisterUpdate s a v (mbc3Enable v s)
  | mbc3RomBank (hk : s.cfg.kind = .mbc3) (ha : within a 0x2000 0x3FFF) :
      RegisterUpdate s a v { s with romBankOffset := mbc3RomBank v * romPage }
  | mbc3RtcSelect (hk : s.cfg.kind = .mbc3) (ha : within a 0x4000 0x5FFF) (hlo : 0x08 ≤ v.toNat)
      (hhi : v.toNat ≤ 0x0C) : RegisterUpdate s a v { s with ramBankIndex := -1, rtcSelect := some v }
  | mbc3RamBank (hk : s.cfg.kind = .mbc3) (ha : within a 0x4000 0x5FFF) (hv : v.toNat ≤ 0x03) :
      RegisterUpdate s a v { s with ramBankIndex := (v.toNat : Int), ramBankOffset := v.toNat * ramPage }
  | mbc3Rtc (i : Fin 4) (hk : s.cfg.kind = .mbc3) (ha : within a 0xA000 0xBFFF) (hx : s.ramBankIndex = -1) :
      RegisterUpdate s a v { s with rtc := s.rtc.set v i }
  | echoMbc1 (hk : s.cfg.kind = .mbc1) (hf : s.cfg.echoReentry = .full) : RegisterUpdate s a v (mbc1RamEnable v s)
  | echoMbc3 (hk : s.cfg.kind = .mbc3) (hf : s.cfg.echoReentry = .full) : RegisterUpdate s a v (mbc3Enable v s)

theorem Responded.plain {s t : State} (h : Responded s t) : PlainUpdate s t := by
  obtain ⟨v, rfl⟩ := h
  exact .respond v

theorem Stored.plain {s t : State} {b : Buf} {i : Nat} {v : Byte} (h : Stored s t b i v) : PlainUpdate s t := by
  obtain ⟨hi, rfl⟩ := h
  exact .store v hi

theorem GatedStored.plain {s t : State} {a : Addr} {v : Byte} (h : GatedStored s t a v) : PlainUpdate s t := by
  rcases h with ⟨-, rfl⟩ | ⟨-, hs⟩
  · exact .same
  · exact hs.plain

/-- Every operation of the kind makes one of the two kinds of update. -/
theorem Effect.update {i : Instr} {s t : State} (h : Effect i s t) (hwf : i.wf s.cfg.kind = true) :
    PlainUpdate s t ∨ ∃ a v, encode i = requestWord 0b01 a v ∧ RegisterUpdate s a v t := by
  cases i with
  | rdRom0 | rdRomx | rdVram | rdXram | rdWram0 | rdWramx | rdEcho | rdOam => exact .inl (Responded.plain h)
  | rdXramNone | rdUnusable => cases h; exact .inl (.respond _)
  | rdIo => cases h; exact .inl (.ioRead _)
  | wrRomNop | wrXramNop | wrUnusable => cases h; exact .inl .same
  | wrVram | wrWram0 | wrWramx | wrOam => exact .inl (Stored.plain h)
  | wrIo => cases h; exact .inl (.ioWrite _ _)
  | wrMbc1Xram => exact .inl (GatedStored.plain h)
  | saveBase | loadBase => cases h; exact .inl (.report (by decide))
  | saveMbc =>
    rcases h with rfl | rfl
    · exact .inl (.dump _)
    · exact .inl (.report (by decide))
  | loadMbc =>
    rcases h with rfl | rfl | rfl | rfl
    · exact .inl .fillShort
    · exact .inl .fill
    · exact .inl (.report (by decide))
    · exact .inl (.report (by decide))
  | wrEcho a v =>
    rcases h with rfl | ⟨hf, ⟨hk, rfl⟩ | ⟨hk, rfl⟩⟩
    · exact .inl .same
    · exact .inr ⟨a, v, rfl, .echoMbc1 hk hf⟩
    · exact .inr ⟨a, v, rfl, .echoMbc3 hk hf⟩
  | wrMbc1Ramen a v =>
    obtain ⟨hk, ha⟩ := kind_and_window hwf
    cases h
    exact .inr ⟨a, v, rfl, .mbc1Gate hk ha⟩
  | wrMbc1Romlo a v =>
    obtain ⟨hk, ha⟩ := kind_and_window hwf
    cases h
    exact .inr ⟨a, v, rfl, .mbc1RomLow hk ha⟩
  | wrMbc1Bankhi a v =>
    obtain ⟨hk, ha⟩ := kind_and_window hwf
    rcases h with ⟨hm, rfl⟩ | ⟨hm, rfl⟩
    · exact .inr ⟨a, v, rfl, .mbc1RomHigh hk ha hm⟩
    · exact .inr ⟨a, v, rfl, .mbc1RamBank hk ha hm⟩
  | wrMbc1Mode a v =>
    obtain ⟨hk, ha⟩ := kind_and_window hwf
    rcases h with ⟨hc, rfl⟩ | ⟨-, rfl⟩
    · exact .inr ⟨a, v, rfl, .mbc1Mode hk ha hc⟩
    · exact .inl .same
  | wrMbc3Enable a v =>
    obtain ⟨hk, ha⟩ := kind_and_window hwf
    cases h
    exact .inr ⟨a, v, rfl, .mbc3Gate hk ha⟩
  | wrMbc3Romb a v =>
    obtain ⟨hk, ha⟩ := kind_and_window hwf
    cases h
    exact .inr ⟨a, v, rfl, .mbc3RomBank hk ha⟩
  | wrMbc3RambRtc a v =>
    obtain ⟨hk, ha⟩ := kind_and_window hwf
    rcases h with ⟨hlo, hhi, -, rfl⟩ | ⟨hv, rfl⟩ | rfl
    · exact .inr ⟨a, v, rfl, .mbc3RtcSelect hk ha hlo hhi⟩
    · exact .inr ⟨a, v, rfl, .mbc3RamBank hk ha hv⟩
    · exact .inl .same
  | wrMbc3Xram a v =>
    obtain ⟨hk, ha⟩ := kind_and_window hwf
    rcases h with ⟨hx, i, rfl⟩ | ⟨-, hg⟩
    · exact .inr ⟨a, v, rfl, .mbc3Rtc i hk ha hx⟩
    · exact .inl hg.plain

/-- A step that goes on idled, or took the oldest request and made one of the two kinds of update. -/
theorem step_update {s t : State} (h : step s = .next t) :
    (s.requests = [] ∧ t = s) ∨
    ∃ r rest, s.requests = r :: rest ∧ (PlainUpdate (s.accept r rest) t ∨
      ∃ a v, r.word = requestWord 0b01 a v ∧ RegisterUpdate (s.accept r rest) a v t) := by
  rcases step_effect h with hidle | ⟨r, rest, i, -, -, hq, hd, he⟩
  · exact .inl hidle
  · obtain ⟨hwf, hw⟩ := decode_sound hd
    exact .inr ⟨r, rest, hq, hw ▸ he.update hwf⟩

/-! ## What no step changes -/

/-- The fields that no operation writes. -/
structure SameFixed (s t : State) : Prop where
  cfg            : t.cfg = s.cfg
  wramBankOffset : t.wramBankOffset = s.wramBankOffset
  vramBankOffset : t.vramBankOffset = s.vramBankOffset
  requests       : t.requests = s.requests

theorem PlainUpdate.sameFixed {s t : State} (h : PlainUpdate s t) : SameFixed s t := by
  cases h <;> constructor <;> simp

theorem RegisterUpdate.sameFixed {s t : State} {a : Addr} {v : Byte} (h : RegisterUpdate s a v t) :
    SameFixed s t := by
  cases h <;> constructor <;> simp

/-- What a step leaves as it was: everything of `SameFixed` but the request taken. -/
theorem step_sameFixed {s t : State} (h : step s = .next t) :
    t = s ∨ ∃ r rest, s.requests = r :: rest ∧ SameFixed (s.accept r rest) t := by
  rcases step_update h with ⟨-, rfl⟩ | ⟨r, rest, hq, hp | ⟨a, v, -, hu⟩⟩
  · exact .inl rfl
  · exact .inr ⟨r, rest, hq, hp.sameFixed⟩
  · exact .inr ⟨r, rest, hq, hu.sameFixed⟩

/-! ## The invariant -/

/-- A buffer's condition speaks of its bytes and of the configuration only. -/
theorem State.BufferOk.congr {s t : State} {b : Buf} (h : s.BufferOk b) (hb : t.buffer b = s.buffer b)
    (hc : t.cfg = s.cfg) : t.BufferOk b :=
  ⟨by rw [hb]; exact h.form, by rw [hb, hc]; exact h.fits⟩

/-- The ROM bank offset of a bank from 1 to 127 (R39, R192, R232). -/
theorem romBank_mul_range {n : Nat} (h1 : 1 ≤ n) (h2 : n ≤ 127) :
    n * romPage % 0x4000 = 0 ∧ 0x4000 ≤ n * romPage ∧ n * romPage < 0x200000 := by
  unfold romPage
  omega

/-- The RAM bank offset of a bank from 0 to 3 (R40). -/
theorem ramBank_mul_mem {n : Nat} (h : n ≤ 3) : n * ramPage ∈ [0x0000, 0x2000, 0x4000, 0x6000] := by
  simp only [ramPage, List.mem_cons, List.not_mem_nil]
  omega

/-- A selected RAM bank is a value of the bank index (R47). -/
theorem ramBankIndex_mem {n : Nat} (h : n ≤ 3) : (n : Int) ∈ [(-1 : Int), 0, 1, 2, 3] := by
  simp only [List.mem_cons, List.not_mem_nil]
  omega

theorem alias1_range (n : BitVec 7) : 1 ≤ (alias1 n).toNat ∧ (alias1 n).toNat ≤ 127 := by
  have hn := n.isLt
  rw [alias1_toNat]
  split <;> omega

theorem mbc3RomBank_range (v : Byte) : 1 ≤ mbc3RomBank v ∧ mbc3RomBank v ≤ 127 := by
  rw [mbc3RomBank_eq]
  split <;> omega

theorem count_unsupported_report (s : State) {e : ErrorKind} (he : e ≠ .unsupported) :
    (s.report e).errors.count .unsupported = s.errors.count .unsupported := by
  simp [he]

namespace State.Inv

variable {s : State}

/-- The buffers' conditions pass to a state with the same buffers and configuration. -/
theorem buffers_congr (h : s.Inv) {t : State} (hc : t.cfg = s.cfg) (hb : ∀ b, t.buffer b = s.buffer b) (b : Buf) :
    t.BufferOk b :=
  (h.buffers b).congr (hb b) hc

/-- The invariant does not speak of the ports, the streams, the queue or the RTC file. -/
theorem accept (h : s.Inv) (r : Request) (rest : List Request) : (s.accept r rest).Inv :=
  { h with buffers := h.buffers_congr rfl fun _ => rfl }

theorem putBuffer (h : s.Inv) (b : Buf) {m : Memory} (hm : m.wf = true) (hf : m.fits (bufSize s.cfg b) = true) :
    (s.putBuffer b m).Inv := by
  have hb : ∀ c, (s.putBuffer b m).BufferOk c := fun c => by
    by_cases hcb : c = b
    · subst hcb
      exact ⟨by simpa using hm, by simpa using hf⟩
    · exact (h.buffers c).congr (s.putBuffer_buffer_of_ne m hcb) (by simp)
  cases b <;> exact { h with buffers := hb }

theorem report (h : s.Inv) {e : ErrorKind} (he : e ≠ .unsupported) : (s.report e).Inv :=
  { h with
    buffers := h.buffers_congr rfl fun _ => rfl
    unsupportedOnce := (count_unsupported_report s he).trans h.unsupportedOnce }

theorem fillCartRam (h : s.Inv) : (fillCartRam s).Inv :=
  h.putBuffer .cartRam (Memory.fromBytes_wf _ _) (Memory.fromBytes_fits (List.length_take_le _ _))

theorem plainUpdate (h : s.Inv) {t : State} (hp : PlainUpdate s t) : t.Inv := by
  cases hp with
  | same => exact h
  | respond | ioRead | ioWrite | dump => exact { h with buffers := h.buffers_congr rfl fun _ => rfl }
  | store v hi =>
    obtain ⟨hform, hfits⟩ := h.buffers _
    exact h.putBuffer _ (Memory.write_wf _ v hform) (Memory.write_fits v hfits hi)
  | report he => exact h.report he
  | fill => exact h.fillCartRam
  | fillShort => exact h.fillCartRam.report (by decide)

/-- The gates may change where the kind has a gate, and open only over a declared RAM bank. -/
theorem setGates (h : s.Inv) (hk : s.cfg.kind = .mbc1 ∨ s.cfg.kind = .mbc3) (gate rtcGate : Bool)
    (hg : gate = true → 1 ≤ s.cfg.ramBankCount) : State.Inv { s with ramEnabled := gate, rtcEnabled := rtcGate } :=
  { h with
    buffers := h.buffers_congr rfl fun _ => rfl
    fixedKinds := fun hn => by rcases hk with hk | hk <;> simp [hk] at hn
    gateCapable := hg }

theorem mbc1RamEnable (h : s.Inv) (hk : s.cfg.kind = .mbc1) (v : Byte) : (mbc1RamEnable v s).Inv := by
  unfold Machine.mbc1RamEnable
  split
  · exact h.setGates (.inl hk) _ _ fun _ => ‹_›
  · exact h

theorem mbc3Enable (h : s.Inv) (hk : s.cfg.kind = .mbc3) (v : Byte) : (mbc3Enable v s).Inv := by
  unfold Machine.mbc3Enable
  split
  · exact h.setGates (.inr hk) _ _ fun _ => ‹_›
  · exact h.setGates (.inr hk) _ _ h.gateCapable

theorem setMbc1RomBank (h : s.Inv) (hk : s.cfg.kind = .mbc1) (n : BitVec 7) : (setMbc1RomBank n s).Inv :=
  { h with
    buffers := h.buffers_congr rfl fun _ => rfl
    romOffset := romBank_mul_range (alias1_range n).1 (alias1_range n).2
    mbc1Mapped := fun _ => rfl
    fixedKinds := fun hn => by simp [hk] at hn }

theorem registerUpdate (h : s.Inv) {t : State} {a : Addr} {v : Byte} (hu : RegisterUpdate s a v t) : t.Inv := by
  cases hu with
  | mbc1Gate hk | echoMbc1 hk => exact h.mbc1RamEnable hk v
  | mbc3Gate hk | echoMbc3 hk => exact h.mbc3Enable hk v
  | mbc1RomLow hk | mbc1RomHigh hk => exact h.setMbc1RomBank hk _
  | mbc1RamBank hk =>
    exact { h with
      buffers := h.buffers_congr rfl fun _ => rfl
      ramOffset := ramBank_mul_mem (Nat.le_of_lt_succ (v.extractLsb' 0 2).isLt)
      mbc3Bank := fun h3 => by simp [hk] at h3
      fixedKinds := fun hn => by simp [hk] at hn }
  | mbc1Mode hk _ hc =>
    exact { h with buffers := h.buffers_congr rfl fun _ => rfl, modeCapable := fun _ => ⟨hk, hc⟩ }
  | mbc3RomBank hk =>
    exact { h with
      buffers := h.buffers_congr rfl fun _ => rfl
      romOffset := romBank_mul_range (mbc3RomBank_range v).1 (mbc3RomBank_range v).2
      mbc1Mapped := fun h1 => by simp [hk] at h1
      fixedKinds := fun hn => by simp [hk] at hn }
  | mbc3RtcSelect hk _ hlo hhi =>
    exact { h with
      buffers := h.buffers_congr rfl fun _ => rfl
      mbc3Bank := fun _ => ⟨by simp, by simp⟩
      mbc3Select := fun _ => ⟨by simp, fun w hw => by cases hw; exact ⟨hlo, hhi⟩⟩ }
  | mbc3RamBank hk _ hv =>
    exact { h with
      buffers := h.buffers_congr rfl fun _ => rfl
      ramOffset := ramBank_mul_mem hv
      mbc3Bank := fun _ => ⟨ramBankIndex_mem hv, fun _ => by simp [ramPage]⟩
      mbc3Select := fun h3 => ⟨by simp, (h.mbc3Select h3).2⟩
      fixedKinds := fun hn => by simp [hk] at hn }
  | mbc3Rtc => exact { h with buffers := h.buffers_congr rfl fun _ => rfl }

end State.Inv

/-- Settles O48: the invariant does not speak of the ports that taking a request changes, and each of the two kinds of
update keeps it. -/
theorem stepKeepsInvariant : Obligations.StepKeepsInvariant := by
  intro s t hs h
  rcases step_update h with ⟨-, rfl⟩ | ⟨r, rest, -, hp | ⟨a, v, -, hu⟩⟩
  · exact hs
  · exact (hs.accept r rest).plainUpdate hp
  · exact (hs.accept r rest).registerUpdate hu

/-- Settles O49: the three fields are among those that no operation writes. -/
theorem configurationIsFixed : Obligations.ConfigurationIsFixed := by
  intro s t h
  rcases step_sameFixed h with rfl | ⟨r, rest, -, hcfg, hwram, hvram, -⟩
  · exact ⟨rfl, rfl, rfl⟩
  · exact ⟨hcfg, hwram, hvram⟩

/-- Settles O11: taking a request leaves those behind it, and no operation writes the queue. -/
theorem requestsAreTakenInOrder : Obligations.RequestsAreTakenInOrder := by
  refine ⟨fun s t r rest hq h => ?_, fun s => step_of_idle⟩
  rcases step_update h with ⟨hnil, -⟩ | ⟨r', rest', hq', hu⟩
  · simp [hq] at hnil
  · obtain ⟨rfl, rfl⟩ := List.cons.inj (hq.symm.trans hq')
    rcases hu with hp | ⟨a, v, -, hr⟩
    · exact hp.sameFixed.requests
    · exact hr.sameFixed.requests

/-- Settles O10: taking a request is `State.accept`. -/
theorem stepRunsTheDecodedRequest : Obligations.StepRunsTheDecodedRequest :=
  fun _ _ _ _ => step_of_run

/-! ## Construction -/

/-- The constructed block meets the invariant with any log that has the report of MBC2 and no other UNSUPPORTED. -/
theorem built_inv {c : Config} {init : InitContents} (h : configOk c init = true) {log : List ErrorKind}
    (hlog : log.count .unsupported = if c.kind = .mbc2 then 1 else 0) :
    State.Inv { built c init with errors := log } := by
  obtain ⟨hwram, hvram, hlv, hlw, hlo, hlc⟩ := (configOk_iff c init).1 h
  have hbuf : ∀ b, State.BufferOk { built c init with errors := log } b := by
    intro b
    cases b with
    | vram => exact ⟨Memory.fromBytes_wf _ _, Memory.fromBytes_fits hlv.le⟩
    | wram => exact ⟨Memory.fromBytes_wf _ _, Memory.fromBytes_fits hlw.le⟩
    | oam => exact ⟨Memory.fromBytes_wf _ _, Memory.fromBytes_fits hlo.le⟩
    | cartRam =>
      by_cases hk : c.kind = .none
      · exact ⟨by simp [built, State.buffer, hk, Memory.wf], by simp [built, State.buffer, hk, Memory.fits]⟩
      · have hcart : State.buffer { built c init with errors := log } .cartRam = Memory.fromBytes 0 init.cartRam :=
          if_neg hk
        exact ⟨by rw [hcart]; exact Memory.fromBytes_wf _ _,
          by rw [hcart]; exact Memory.fromBytes_fits (hlc.resolve_left hk).le⟩
  exact {
    buffers := hbuf
    wramOffset := hwram
    vramOffset := hvram
    romOffset := by simp [built]
    ramOffset := by simp [built]
    mbc1Mapped := fun _ => show 0x4000 = mbc1RomOffset 0x01 by decide
    mbc3Bank := by simp [built]
    mbc3Select := by simp [built]
    fixedKinds := fun _ => ⟨rfl, rfl, rfl⟩
    modeCapable := by simp [built]
    gateCapable := by simp [built]
    unsupportedOnce := hlog }

/-- Settles O45: MBC2 is built with the one report of UNSUPPORTED, every other kind with an empty log. -/
theorem constructionEstablishesInvariant : Obligations.ConstructionEstablishesInvariant := by
  intro name p init s h
  obtain ⟨k, -, hok, rfl⟩ := construct_eq_next h
  split <;> rename_i hk
  · exact built_inv (log := [.unsupported]) hok (by simp [hk])
  · exact built_inv (log := []) hok (by simp [hk])

/-! ## The windows of the bank-controller registers -/

/-- The bank-controller registers and the RTC file, the fields of which R52 speaks. -/
structure SameRegisters (s t : State) : Prop where
  ramEnabled    : t.ramEnabled = s.ramEnabled
  rtcEnabled    : t.rtcEnabled = s.rtcEnabled
  romBank       : t.romBank = s.romBank
  romBankOffset : t.romBankOffset = s.romBankOffset
  ramBankOffset : t.ramBankOffset = s.ramBankOffset
  modeSelect    : t.modeSelect = s.modeSelect
  ramBankIndex  : t.ramBankIndex = s.ramBankIndex
  rtcSelect     : t.rtcSelect = s.rtcSelect
  rtc           : t.rtc = s.rtc

theorem PlainUpdate.sameRegisters {s t : State} (h : PlainUpdate s t) : SameRegisters s t := by
  cases h <;> constructor <;> simp

theorem writePending_of_word {s : State} {r : Request} {rest : List Request} {a : Addr} {v : Byte} {lo hi : Nat}
    (hq : s.requests = r :: rest) (hw : r.word = requestWord 0b01 a v) (ha : within a lo hi) :
    writePending s lo hi :=
  ⟨r, rest, hq, by rw [hw, opField_requestWord], by rwa [hw, addrField_requestWord]⟩

/-- Settles O50: an update of registers names its window and kind, and any other update changes no register. -/
theorem registersChangeOnlyThroughTheirWindows : Obligations.RegistersChangeOnlyThroughTheirWindows := by
  intro s t hbase h
  rcases step_update h with ⟨-, rfl⟩ | ⟨r, rest, hq, hp | ⟨a, v, hw, hu⟩⟩
  · simp
  · obtain ⟨hgate, hrtcGate, hbank, hrom, hram, hmode, hindex, hselect, hrtc⟩ := hp.sameRegisters
    simp [hgate, hrtcGate, hbank, hrom, hram, hmode, hindex, hselect, hrtc]
  · have hpend {lo hi : Nat} (ha : within a lo hi) : writePending s lo hi := writePending_of_word hq hw ha
    cases hu with
    | mbc1Gate hk ha =>
      simpa [show s.cfg.kind = .mbc1 from hk, hpend ha] using fun hc _ => hc
    | mbc1RomLow hk ha =>
      simp [show s.cfg.kind = .mbc1 from hk, hpend ha]
    | mbc1RomHigh hk ha hm =>
      simp [show s.cfg.kind = .mbc1 from hk, hpend ha, show s.modeSelect = true from hm]
    | mbc1RamBank hk ha hm =>
      simp [show s.cfg.kind = .mbc1 from hk, hpend ha, show s.modeSelect = false from hm]
    | mbc1Mode hk ha hc =>
      simp [show s.cfg.kind = .mbc1 from hk, hpend ha, show s.cfg.ramBankCount = 3 from hc]
    | mbc3Gate hk ha =>
      simpa [show s.cfg.kind = .mbc3 from hk, hpend ha] using fun hc _ => hc
    | mbc3RomBank hk ha | mbc3RtcSelect hk ha | mbc3RamBank hk ha =>
      simp [show s.cfg.kind = .mbc3 from hk, hpend ha]
    | mbc3Rtc i hk ha hx =>
      simp [show s.cfg.kind = .mbc3 from hk, hpend ha, show s.ramBankIndex = -1 from hx]
    | echoMbc1 _ hf | echoMbc3 _ hf =>
      exact absurd (hbase.symm.trans hf) (by decide)

/-! ## The RTC file is not observed

Two runs that differ in the RTC file alone are compared by one equation per shared operation: other RTC bytes put in
before the operation, or after it into its next state. Only the RTC accesses look at the file. -/

/-- The state with other bytes in the RTC file. -/
def State.putRtc (s : State) (r : RtcFile) : State := { s with rtc := r }

/-- The result with other bytes in the RTC file of its next state. -/
def resultPutRtc (r : RtcFile) : Result → Result
  | .next t => .next (t.putRtc r)
  | .fault f => .fault f
  | .refused x => .refused x

@[simp] theorem State.putRtc_cfg (s : State) (r : RtcFile) : (s.putRtc r).cfg = s.cfg := rfl

/-- A branch on what other RTC bytes leave alone. -/
theorem resultPutRtc_ite {c : Prop} [Decidable c] {r : RtcFile} {x y x' y' : Result} (hx : x' = resultPutRtc r x)
    (hy : y' = resultPutRtc r y) : (if c then x' else y') = resultPutRtc r (if c then x else y) := by
  split
  · exact hx
  · exact hy

theorem deliver_putRtc (s : State) (r : RtcFile) (x : Except Fault Byte) :
    deliver (s.putRtc r) x = resultPutRtc r (deliver s x) := by
  cases x <;> rfl

/-- A store looks at and writes the buffers only. -/
theorem storeByte_putRtc (s : State) (r : RtcFile) (b : Buf) (i : Nat) (v : Byte) :
    storeByte (s.putRtc r) b i v = resultPutRtc r (storeByte s b i v) :=
  resultPutRtc_ite (by cases b <;> rfl) rfl

theorem ramStore_putRtc (s : State) (r : RtcFile) (a : Addr) (v : Byte) :
    ramStore a v (s.putRtc r) = resultPutRtc r (ramStore a v s) :=
  resultPutRtc_ite (storeByte_putRtc ..) rfl

/-- An RTC write stores its byte into whichever file it finds. -/
theorem rtcWrite_putRtc (s : State) (r : RtcFile) (v : Byte) :
    ∃ r', rtcWrite v (s.putRtc r) = resultPutRtc r' (rtcWrite v s) := by
  cases h : rtcIndex s.cfg.rtcIndexMap s.rtcSelect with
  | none => exact ⟨r, by simp [rtcWrite, State.putRtc, resultPutRtc, h]⟩
  | some i => exact ⟨r.set v i, by simp [rtcWrite, State.putRtc, resultPutRtc, h]⟩

theorem mbc1RamEnable_putRtc (s : State) (r : RtcFile) (v : Byte) :
    mbc1RamEnable v (s.putRtc r) = (mbc1RamEnable v s).putRtc r := by
  by_cases h : s.cfg.ramBankCount ≥ 1 <;> simp [mbc1RamEnable, State.putRtc, h]

theorem mbc3Enable_putRtc (s : State) (r : RtcFile) (v : Byte) :
    mbc3Enable v (s.putRtc r) = (mbc3Enable v s).putRtc r := by
  by_cases h : s.cfg.ramBankCount ≥ 1 <;> simp [mbc3Enable, State.putRtc, h]

/-- The echo write looks at the configuration only, and re-enters at the enable writes only. -/
theorem exec_wrEcho_putRtc (s : State) (r : RtcFile) (a : Addr) (v : Byte) :
    exec (.wrEcho a v) (s.putRtc r) = resultPutRtc r (exec (.wrEcho a v) s) := by
  rw [exec_wrEcho, exec_wrEcho, State.putRtc_cfg]
  cases s.cfg.echoReentry with
  | base => rfl
  | full =>
    cases s.cfg.kind with
    | none | mbc2 => rfl
    | mbc1 => exact congrArg Host.Outcome.next (mbc1RamEnable_putRtc s r v)
    | mbc3 => exact congrArg Host.Outcome.next (mbc3Enable_putRtc s r v)

/-- Under `RTC_READ_PATH = CART_RAM` an operation ends the same with any other RTC bytes, but for the RTC file. -/
theorem exec_putRtc (i : Instr) (s : State) (r : RtcFile) (hpath : s.cfg.rtcReadPath = .cartRam) :
    ∃ r', exec i (s.putRtc r) = resultPutRtc r' (exec i s) := by
  cases i with
  | rdRom0 | rdRomx | rdVram | rdWram0 | rdWramx | rdEcho => exact ⟨r, deliver_putRtc s r _⟩
  | rdOam a => exact ⟨r, deliver_putRtc s r (loadByte s .oam (oamIndex a))⟩
  | rdXram a =>
    rw [exec_rdXram, exec_rdXram, if_neg (by simp [hpath]), if_neg (by simp [hpath])]
    exact ⟨r, deliver_putRtc s r _⟩
  | rdXramNone | rdUnusable | rdIo => exact ⟨r, rfl⟩
  | wrRomNop | wrXramNop | wrUnusable | wrIo => exact ⟨r, rfl⟩
  | wrVram | wrWram0 | wrWramx => exact ⟨r, storeByte_putRtc s r _ _ _⟩
  | wrOam a v => exact ⟨r, storeByte_putRtc s r .oam (oamIndex a) v⟩
  | wrEcho a v => exact ⟨r, exec_wrEcho_putRtc s r a v⟩
  | wrMbc1Ramen a v => exact ⟨r, congrArg Host.Outcome.next (mbc1RamEnable_putRtc s r v)⟩
  | wrMbc1Romlo | wrMbc3Romb | saveBase | loadBase => exact ⟨r, rfl⟩
  | wrMbc1Bankhi | wrMbc1Mode | saveMbc => exact ⟨r, resultPutRtc_ite rfl rfl⟩
  | wrMbc1Xram a v => exact ⟨r, ramStore_putRtc s r a v⟩
  | wrMbc3Enable a v => exact ⟨r, congrArg Host.Outcome.next (mbc3Enable_putRtc s r v)⟩
  | wrMbc3RambRtc => exact ⟨r, resultPutRtc_ite rfl (resultPutRtc_ite rfl rfl)⟩
  | wrMbc3Xram a v =>
    rw [exec_wrMbc3Xram, exec_wrMbc3Xram]
    by_cases hx : s.ramBankIndex = -1
    · rw [if_pos hx, if_pos (show (s.putRtc r).ramBankIndex = -1 from hx)]
      exact rtcWrite_putRtc s r v
    · rw [if_neg hx, if_neg (show (s.putRtc r).ramBankIndex ≠ -1 from hx)]
      exact ⟨r, ramStore_putRtc s r a v⟩
  | loadMbc => exact ⟨r, resultPutRtc_ite (resultPutRtc_ite (resultPutRtc_ite rfl rfl) rfl) rfl⟩

/-- The RTC file plays no part in taking a request, so a step ends the same with any other RTC bytes, but for the
RTC file. -/
theorem step_putRtc (s : State) (r : RtcFile) (hpath : s.cfg.rtcReadPath = .cartRam) :
    ∃ r', step (s.putRtc r) = resultPutRtc r' (step s) := by
  rcases fetch_cases s with ⟨f, hf, -⟩ | ⟨hf, hr, -⟩ | ⟨hf, hr, hq, -⟩ | ⟨q, rest, e, hf, hr, hq, hd, -⟩ |
    ⟨q, rest, i, hf, hr, hq, hd, -⟩
  · exact ⟨r, by rw [step_of_fault hf, step_of_fault (s := s.putRtc r) hf]; rfl⟩
  · exact ⟨r, by rw [step_of_refused hf hr, step_of_refused (s := s.putRtc r) hf hr]; rfl⟩
  · exact ⟨r, by rw [step_of_idle hf hr hq, step_of_idle (s := s.putRtc r) hf hr hq]; rfl⟩
  · exact ⟨r, by rw [step_of_rejected hf hr hq hd, step_of_rejected (s := s.putRtc r) hf hr hq hd]; rfl⟩
  · rw [step_of_run hf hr hq hd, step_of_run (s := s.putRtc r) hf hr hq hd]
    exact exec_putRtc i (s.accept q rest) r hpath

/-- Settles O38: the step from the other RTC file ends as the step does, its next state different in that file only. -/
theorem rtcFileIsNotObserved : Obligations.RtcFileIsNotObserved := by
  intro s r hpath
  obtain ⟨r', hstep⟩ := step_putRtc s r hpath
  refine ⟨fun t h => ⟨r', ?_⟩, fun f h => ?_, fun x h => ?_⟩ <;> rw [h] at hstep <;> exact hstep

end Sys2Proof.Machine
end

section
open Sys2Proof.Claims

namespace Sys2Proof.Machine

/-! # The statements of spec/20_memory.md

## A READ repeats its byte -/

/-- A word with OP 00 decodes by the read table or not at all. -/
theorem decode_eq_decodeRead {k : Kind} {w : ReqWord} {i : Instr} (hop : opField w = 0b00) (h : decode k w = .ok i) :
    i = decodeRead k (addrField w) := by
  unfold decode at h
  rw [if_pos (show opField w = 0#2 from hop)] at h
  split at h <;> cases h
  rfl

theorem decodeRead_io {a : Addr} (ha : 0xFF00 ≤ a.toNat) (k : Kind) : decodeRead k a = .rdIo a := by
  simp (disch := omega) only [decodeRead, if_neg]

/-- The operation reads one byte, or runs into one fault, whichever request asks for it. -/
def RepeatsItsByte (s : State) (i : Instr) : Prop :=
  ∃ x : Except Fault Byte, ∀ r rest, exec i (s.accept r rest) = deliver (s.accept r rest) x

theorem rdXram_repeatsItsByte (s : State) (a : Addr) : RepeatsItsByte s (.rdXram a) := by
  by_cases h : s.cfg.kind = .mbc3 ∧ s.cfg.rtcReadPath = .rtcFile ∧ s.ramBankIndex = -1
  · exact ⟨rtcRead s, fun _ _ => if_pos h⟩
  · exact ⟨xramRead s a, fun _ _ => if_neg h⟩

/-- Outside the I/O range a READ looks at no field that taking a request writes. -/
theorem decodeRead_repeatsItsByte (s : State) (k : Kind) {a : Addr} (ha : a.toNat < 0xFF00) :
    RepeatsItsByte s (decodeRead k a) := by
  rcases addr_regions a with h | h | h | h | h | h | h | h | h | h <;>
    simp (disch := omega) only [decodeRead, if_pos, if_neg]
  · exact ⟨romRead s (rom0Offset a), fun _ _ => rfl⟩
  · exact ⟨romRead s (romxOffset s a), fun _ _ => rfl⟩
  · exact ⟨loadByte s .vram (vramIndex s a), fun _ _ => rfl⟩
  · cases k with
    | none => exact ⟨.ok 0x00, fun _ _ => rfl⟩
    | mbc1 | mbc2 | mbc3 => exact rdXram_repeatsItsByte s a
  · exact ⟨loadByte s .wram (wram0Index a), fun _ _ => rfl⟩
  · exact ⟨loadByte s .wram (wramxIndex s a), fun _ _ => rfl⟩
  · exact ⟨romRead s (rom0Offset (echoTarget a)), fun _ _ => rfl⟩
  · exact ⟨loadByte s .oam (oamIndex a), fun _ _ => rfl⟩
  · exact ⟨.ok 0xFF, fun _ _ => rfl⟩
  · omega

/-- A step that takes a READ and goes on ran the read table's operation. -/
theorem step_read {s t : State} {r : Request} {rest : List Request} (hq : s.requests = r :: rest)
    (hop : opField r.word = 0b00) (h : step s = .next t) :
    s.fault = none ∧ s.refused = false ∧
      decode s.cfg.kind r.word = .ok (decodeRead s.cfg.kind (addrField r.word)) ∧
      exec (decodeRead s.cfg.kind (addrField r.word)) (s.accept r rest) = .next t := by
  rcases step_eq_next h with ⟨hnil, -⟩ | ⟨r', rest', i, hf, hr, hq', hd, hx⟩
  · simp [hq] at hnil
  · obtain ⟨rfl, rfl⟩ := List.cons.inj (hq.symm.trans hq')
    obtain rfl := decode_eq_decodeRead hop hd
    exact ⟨hf, hr, hd, hx⟩

/-- Settles O51: the byte of a READ is returned in the response port; the same READ behind it finds the state the
first one found, its own request taken. -/
theorem readsChangeNoState : Obligations.ReadsChangeNoState := by
  constructor
  · intro s t r rest hq hop h
    obtain ⟨-, -, -, hx⟩ := step_read hq hop h
    by_cases ha : (addrField r.word).toNat < 0xFF00
    · obtain ⟨x, hread⟩ := decodeRead_repeatsItsByte s s.cfg.kind ha
      obtain ⟨v, -, rfl⟩ := deliver_eq_next.1 ((hread r rest).symm.trans hx)
      exact ⟨v, s.ioDraws, rfl, fun _ => rfl⟩
    · rw [decodeRead_io (by omega), exec_rdIo] at hx
      cases hx
      exact ⟨_, s.ioDraws + 1, rfl, fun h => absurd h ha⟩
  · intro s t r q rest hq hop ha hw h
    obtain ⟨hf, hr, hd, hx⟩ := step_read hq hop h
    obtain ⟨x, hread⟩ := decodeRead_repeatsItsByte s s.cfg.kind ha
    obtain ⟨v, rfl, rfl⟩ := deliver_eq_next.1 ((hread r (q :: rest)).symm.trans hx)
    have hnext : step ((s.accept r (q :: rest)).respond v) = .next ((s.accept q rest).respond v) :=
      (step_of_run (s := (s.accept r (q :: rest)).respond v) hf hr rfl (hw ▸ hd)).trans (hread q rest)
    exact ⟨_, hnext, rfl⟩

/-! ## The three faults of the invariant -/

/-- The faults that a state of the invariant can run into, each with its condition. -/
inductive ReachableFault (s : State) : Fault → Prop
  | cartRam {i : Nat} (hgate : s.ramEnabled = true) (hi : s.cfg.cartRamSize ≤ i) :
      ReachableFault s (.bounds .cartRam i)
  | rom {off : Nat} (hoff : off < 0x200000) (hnone : romAnswer s.cfg.rom off = none) :
      ReachableFault s (.romUnmapped off)
  | rtc {v : Byte} (hk : s.cfg.kind = .mbc3) (hs : s.rtcSelect = some v) (hlo : 0x08 ≤ v.toNat)
      (hhi : v.toNat ≤ 0x0C) (hnone : rtcIndex s.cfg.rtcIndexMap (some v) = none) :
      ReachableFault s (.rtcUnresolved (some v))

/-- The address bounds of an operation's row. -/
theorem within_of_addr_within {a : Addr} {lo hi : Nat} (h : a.within lo hi = true) : within a lo hi := by
  simpa [Addr.within, within] using h

theorem rtcRead_eq_error {s : State} {f : Fault} :
    rtcRead s = .error f ↔ rtcIndex s.cfg.rtcIndexMap s.rtcSelect = none ∧ f = .rtcUnresolved s.rtcSelect := by
  cases h : rtcIndex s.cfg.rtcIndexMap s.rtcSelect <;> simp [rtcRead, h, eq_comm]

theorem rtcWrite_eq_fault {s : State} {v : Byte} {f : Fault} :
    rtcWrite v s = .fault f ↔ rtcIndex s.cfg.rtcIndexMap s.rtcSelect = none ∧ f = .rtcUnresolved s.rtcSelect := by
  cases h : rtcIndex s.cfg.rtcIndexMap s.rtcSelect <;> simp [rtcWrite, h, eq_comm]

/-- A load in bounds does not fault. -/
theorem deliver_loadByte_ne_fault {s : State} {b : Buf} {i : Nat} {f : Fault} (hi : i < bufSize s.cfg b) :
    deliver s (loadByte s b i) ≠ .fault f := by
  rw [Ne, deliver_eq_fault, loadByte_eq_error]
  omega

/-- A store in bounds does not fault. -/
theorem storeByte_ne_fault {s : State} {b : Buf} {i : Nat} {v : Byte} {f : Fault} (hi : i < bufSize s.cfg b) :
    storeByte s b i v ≠ .fault f := by
  rw [Ne, storeByte_eq_fault]
  omega

theorem deliver_romRead_fault {s : State} {off : Nat} {f : Fault} (hoff : off < 0x200000)
    (hx : deliver s (romRead s off) = .fault f) : ReachableFault s f := by
  obtain ⟨hnone, rfl⟩ := romRead_eq_error.1 (deliver_eq_fault.1 hx)
  exact .rom hoff hnone

namespace State.Inv
variable {s : State} {f : Fault} {a : Addr} {v : Byte}

/-! ### Which accesses stay inside their buffer, and the ROM inside 0x200000 -/

theorem vramIndex_lt (h : s.Inv) (ha : within a 0x8000 0x9FFF) : vramIndex s a < bufSize s.cfg .vram := by
  obtain ⟨-, hoff⟩ := h.vramOffset
  obtain ⟨hlo, hhi⟩ := ha
  unfold vramIndex
  omega

theorem wramxIndex_lt (h : s.Inv) (ha : within a 0xD000 0xDFFF) : wramxIndex s a < bufSize s.cfg .wram := by
  obtain ⟨-, hoff⟩ := h.wramOffset
  obtain ⟨hlo, hhi⟩ := ha
  unfold wramxIndex
  omega

theorem romxOffset_lt (h : s.Inv) (ha : within a 0x4000 0x7FFF) : romxOffset s a < 0x200000 := by
  obtain ⟨hpage, -, hoff⟩ := h.romOffset
  obtain ⟨hlo, hhi⟩ := ha
  unfold romxOffset
  omega

/-- An open gate means a controller, so cartridge RAM has its configured length. -/
theorem bufSize_cartRam_of_gate (h : s.Inv) (hgate : s.ramEnabled = true) :
    bufSize s.cfg .cartRam = s.cfg.cartRamSize := by
  refine bufSize_cartRam fun hk => ?_
  obtain ⟨-, -, hclosed⟩ := h.fixedKinds (.inl hk)
  rw [hclosed] at hgate
  cases hgate

/-! ### The faults of the shared accesses -/

theorem xramRead_fault (h : s.Inv) (hx : xramRead s a = .error f) : ReachableFault s f := by
  cases hgate : s.ramEnabled with
  | false =>
    rw [xramRead_closed hgate] at hx
    cases hx
  | true =>
    rw [xramRead_open hgate] at hx
    obtain ⟨hi, rfl⟩ := loadByte_eq_error.1 hx
    exact .cartRam hgate (h.bufSize_cartRam_of_gate hgate ▸ hi)

theorem ramStore_fault (h : s.Inv) (hx : ramStore a v s = .fault f) : ReachableFault s f := by
  cases hgate : s.ramEnabled with
  | false =>
    rw [ramStore_closed hgate] at hx
    cases hx
  | true =>
    rw [ramStore_open hgate] at hx
    obtain ⟨hi, rfl⟩ := storeByte_eq_fault.1 hx
    exact .cartRam hgate (h.bufSize_cartRam_of_gate hgate ▸ hi)

/-- In RTC mode a value of the RTC range is selected, so only its index can be missing. -/
theorem rtcUnresolved (h : s.Inv) (hk : s.cfg.kind = .mbc3) (hmode : s.ramBankIndex = -1)
    (hnone : rtcIndex s.cfg.rtcIndexMap s.rtcSelect = none) : ReachableFault s (.rtcUnresolved s.rtcSelect) := by
  obtain ⟨hsome, hrange⟩ := h.mbc3Select hk
  obtain ⟨v, hv⟩ := Option.ne_none_iff_exists'.1 (hsome hmode)
  obtain ⟨hlo, hhi⟩ := hrange v hv
  rw [hv] at hnone ⊢
  exact .rtc hk hv hlo hhi hnone

/-- An operation of the kind faults in one of the three ways only. -/
theorem exec_fault {i : Instr} (h : s.Inv) (hwf : i.wf s.cfg.kind = true) (hx : exec i s = .fault f) :
    ReachableFault s f := by
  cases i with
  | rdRom0 a =>
    obtain ⟨-, hhi⟩ := within_of_addr_within hwf
    exact deliver_romRead_fault (by unfold rom0Offset; omega) hx
  | rdRomx a => exact deliver_romRead_fault (h.romxOffset_lt (within_of_addr_within hwf)) hx
  | rdEcho a => exact deliver_romRead_fault (Nat.lt_trans (echoTarget a).isLt (by decide)) hx
  | rdVram a => exact absurd hx (deliver_loadByte_ne_fault (h.vramIndex_lt (within_of_addr_within hwf)))
  | rdWram0 a => exact absurd hx (deliver_loadByte_ne_fault (wram0Index_lt (within_of_addr_within hwf).2 s.cfg))
  | rdWramx a => exact absurd hx (deliver_loadByte_ne_fault (h.wramxIndex_lt (within_of_addr_within hwf)))
  | rdOam a =>
    rw [exec_rdOam] at hx
    exact absurd hx (deliver_loadByte_ne_fault (oamIndex_lt (within_of_addr_within hwf).2 s.cfg))
  | wrVram a v => exact absurd hx (storeByte_ne_fault (h.vramIndex_lt (within_of_addr_within hwf)))
  | wrWram0 a v => exact absurd hx (storeByte_ne_fault (wram0Index_lt (within_of_addr_within hwf).2 s.cfg))
  | wrWramx a v => exact absurd hx (storeByte_ne_fault (h.wramxIndex_lt (within_of_addr_within hwf)))
  | wrOam a v =>
    rw [exec_wrOam] at hx
    exact absurd hx (storeByte_ne_fault (oamIndex_lt (within_of_addr_within hwf).2 s.cfg))
  | rdXram a =>
    rw [exec_rdXram] at hx
    split at hx <;> rw [deliver_eq_fault] at hx
    · rename_i hrtc
      obtain ⟨hk, -, hmode⟩ := hrtc
      obtain ⟨hnone, rfl⟩ := rtcRead_eq_error.1 hx
      exact h.rtcUnresolved hk hmode hnone
    · exact h.xramRead_fault hx
  | wrMbc1Xram a v => exact h.ramStore_fault hx
  | wrMbc3Xram a v =>
    rw [exec_wrMbc3Xram] at hx
    split at hx
    · obtain ⟨hnone, rfl⟩ := rtcWrite_eq_fault.1 hx
      exact h.rtcUnresolved (kind_and_window hwf).1 ‹_› hnone
    · exact h.ramStore_fault hx
  | wrEcho a v =>
    rw [exec_wrEcho] at hx
    split at hx
    · cases hx
    · split at hx <;> cases hx
  | wrMbc1Bankhi a v =>
    rw [exec_wrMbc1Bankhi] at hx
    split at hx <;> cases hx
  | wrMbc1Mode a v =>
    rw [exec_wrMbc1Mode] at hx
    split at hx <;> cases hx
  | wrMbc3RambRtc a v =>
    rw [exec_wrMbc3RambRtc] at hx
    split at hx
    · cases hx
    · split at hx <;> cases hx
  | saveMbc =>
    rw [exec_saveMbc] at hx
    split at hx <;> cases hx
  | loadMbc =>
    rw [exec_loadMbc] at hx
    split at hx
    · split at hx
      · split at hx <;> cases hx
      · cases hx
    · cases hx
  | rdXramNone | rdUnusable | rdIo | wrRomNop | wrXramNop | wrUnusable | wrIo | wrMbc1Ramen | wrMbc1Romlo
  | wrMbc3Enable | wrMbc3Romb | saveBase | loadBase => cases hx

end State.Inv

/-- Settles O55: the step's request is taken in a state of the invariant, whose operations have three faults. -/
theorem faultsOfTheInvariant : Obligations.FaultsOfTheInvariant := by
  intro s f hinv hnone h
  rcases step_eq_fault h with hstuck | ⟨r, rest, i, -, -, -, hd, hx⟩
  · rw [hnone] at hstuck
    cases hstuck
  · cases (hinv.accept r rest).exec_fault (decode_sound hd).1 hx with
    | cartRam hgate hi => exact .inl ⟨_, rfl, hgate, hi⟩
    | rom hoff hrom => exact .inr (.inl ⟨_, rfl, hoff, hrom⟩)
    | rtc hk hs hlo hhi hindex => exact .inr (.inr ⟨_, rfl, hs, hlo, hhi, hk, hindex⟩)

/-! ## A read of a storage byte sees the last write

At an address that reaches a storage byte a bus read is that byte's load and a bus write its store, whichever kind
and address it is reached by. -/

/-- Outside the cartridge-RAM window every kind reads by the base table. -/
theorem busRead_eq_baseRead {a : Addr} (ha : ¬ within a 0xA000 0xBFFF) (s : State) : busRead a s = baseRead a s := by
  have hctl : ctlRead a s = baseRead a s := if_neg ha
  unfold busRead
  cases s.cfg.kind with
  | none => rfl
  | mbc1 | mbc2 | mbc3 => exact hctl

/-- Behind the ROM windows and outside the cartridge-RAM window every kind writes by the base table. -/
theorem busWrite_eq_baseWrite {a : Addr} (hlo : 0x8000 ≤ a.toNat) (ha : ¬ within a 0xA000 0xBFFF) (v : Byte)
    (s : State) : busWrite a v s = baseWrite a v s := by
  unfold within at ha
  unfold busWrite
  cases s.cfg.kind with
  | none | mbc2 => rfl
  | mbc1 => simp (disch := omega) only [mbc1Write, if_neg]
  | mbc3 => simp (disch := omega) only [mbc3Write, if_neg]

/-- Where a bus address reaches a storage byte: the five regions of R75, R77 and R78. -/
inductive StorageRegion (s : State) (a : Addr) : Buf × Nat → Prop
  | vram (ha : within a 0x8000 0x9FFF) : StorageRegion s a (.vram, vramIndex s a)
  | cartRam (ha : within a 0xA000 0xBFFF) (hgate : s.ramEnabled = true)
      (hk : s.cfg.kind = .mbc1 ∨ s.cfg.kind = .mbc3 ∧ s.ramBankIndex ≠ -1) :
      StorageRegion s a (.cartRam, xramIndex s a)
  | wram0 (ha : within a 0xC000 0xCFFF) : StorageRegion s a (.wram, wram0Index a)
  | wramx (ha : within a 0xD000 0xDFFF) : StorageRegion s a (.wram, wramxIndex s a)
  | oam (ha : within a 0xFE00 0xFE9F) : StorageRegion s a (.oam, oamIndex a)

theorem storagePlace_region {s : State} {a : Addr} {p : Buf × Nat} (h : storagePlace s a = some p) :
    StorageRegion s a p := by
  unfold storagePlace at h
  split_ifs at h <;> cases h
  · exact .vram ⟨by omega, by omega⟩
  · rename_i hopen
    exact .cartRam ⟨by omega, by omega⟩ hopen.1 hopen.2
  · exact .wram0 ⟨by omega, by omega⟩
  · exact .wramx ⟨by omega, by omega⟩
  · exact .oam ⟨by omega, by omega⟩

theorem busRead_of_storagePlace {s : State} {a : Addr} {p : Buf × Nat} (h : storagePlace s a = some p) :
    busRead a s = deliver s (loadByte s p.1 p.2) := by
  cases storagePlace_region h with
  | cartRam ha hgate hk =>
    have hopen : execRdXram a s = deliver s (loadByte s .cartRam (xramIndex s a)) := by
      rw [← xramRead_open hgate]
      exact if_neg fun ⟨hk3, _, hmode⟩ => by simp [hk3, hmode] at hk
    have hctl : ctlRead a s = execRdXram a s := if_pos ha
    rcases hk with hk | ⟨hk, -⟩ <;> simp only [busRead, hk, hctl, hopen]
  | vram ha | wram0 ha | wramx ha | oam ha =>
    obtain ⟨hlo, hhi⟩ := ha
    rw [busRead_eq_baseRead (by unfold within; omega)]
    simp (disch := omega) only [baseRead, if_pos, if_neg]
    rfl

theorem busWrite_of_storagePlace {s : State} {a : Addr} {p : Buf × Nat} (h : storagePlace s a = some p) (v : Byte) :
    busWrite a v s = storeByte s p.1 p.2 v := by
  cases storagePlace_region h with
  | cartRam ha hgate hk =>
    obtain ⟨hlo, hhi⟩ := ha
    rw [← ramStore_open hgate]
    rcases hk with hk | ⟨hk, hmode⟩
    · simp (disch := omega) only [busWrite, hk, mbc1Write, if_pos, if_neg]
      rfl
    · simp (disch := omega) only [busWrite, hk, mbc3Write, if_pos, if_neg]
      exact if_neg hmode
  | vram ha | wram0 ha | wramx ha | oam ha =>
    obtain ⟨hlo, hhi⟩ := ha
    rw [busWrite_eq_baseWrite (by omega) (by unfold within; omega)]
    simp (disch := omega) only [baseWrite, if_pos, if_neg]
    rfl

/-- A store moves no bank, so every address still reaches the byte it reached. -/
theorem storagePlace_putBuffer (s : State) (b : Buf) (m : Memory) (a : Addr) :
    storagePlace (s.putBuffer b m) a = storagePlace s a := by
  simp [storagePlace]

/-- Settles O56: the write is a store to its place and the read a load from its own, in either state. -/
theorem storageReadSeesTheLastWrite : Obligations.StorageReadSeesTheLastWrite := by
  intro s t w a b v p q hp hq hwrite hread
  rw [busWrite_of_storagePlace hp] at hwrite
  obtain ⟨-, rfl⟩ := storeByte_eq_next.1 hwrite
  rw [busRead_of_storagePlace hq] at hread
  obtain ⟨x, hload, rfl⟩ := deliver_eq_next.1 hread
  obtain ⟨hi, rfl⟩ := loadByte_eq_ok.1 hload
  rw [busRead_of_storagePlace ((storagePlace_putBuffer ..).trans hq)]
  refine ⟨_, deliver_eq_next.2 ⟨_, loadByte_eq_ok.2 ⟨by simpa using hi, rfl⟩, rfl⟩, ?_⟩
  simp only [State.respond_response, putBuffer_write_read, Prod.ext_iff, apply_ite some]

/-! ## The read after a bank switch -/

/-- RD_ROMX returns the collaborator's byte at the ROM bank it finds. -/
theorem exec_rdRomx_of_answer {s : State} {a : Addr} {x : Byte}
    (h : romAnswer s.cfg.rom (s.romBankOffset + (a.toNat - 0x4000)) = some x) :
    exec (.rdRomx a) s = .next { s with response := some x } :=
  deliver_eq_next.2 ⟨x, romRead_eq_ok.2 h, rfl⟩

/-- The ROM offset of an MBC1 selector as a number. -/
theorem mbc1RomOffset_eq (n : BitVec 7) :
    mbc1RomOffset n = (if n.toNat % 32 = 0 then n.toNat + 1 else n.toNat) * 0x4000 := by
  rw [mbc1RomOffset, alias1_toNat, romPage]

/-- Settles O57: each switch writes the bank's offset at once, and the read looks at that offset. -/
theorem bankSwitchIsSeenByTheNextRead : Obligations.BankSwitchIsSeenByTheNextRead := by
  constructor
  · intro s a v x c _ hrom
    rw [← mbc3RomBank_eq] at hrom
    exact ⟨_, exec_wrMbc3Romb c v s, exec_rdRomx_of_answer hrom⟩
  · intro s a v x c n _ hn hrom
    rw [← withLowBits_toNat] at hn
    subst hn
    rw [← mbc1RomOffset_eq] at hrom
    exact ⟨_, exec_wrMbc1Romlo c v s, exec_rdRomx_of_answer hrom⟩

end Sys2Proof.Machine
end

section
open Sys2Proof.Claims

namespace Sys2Proof.Machine

/-! # The statements of spec/30_encoding.md

## Decode and encode -/

/-- Every kind but NONE reads the cartridge-RAM window by one operation. -/
theorem decodeRead_xram {k : Kind} {a : Addr} (hk : k ≠ .none) (ha : within a 0xA000 0xBFFF) :
    decodeRead k a = .rdXram a := by
  obtain ⟨hlo, hhi⟩ := ha
  simp (disch := omega) only [decodeRead, if_pos, if_neg]
  cases k with
  | none => exact absurd rfl hk
  | mbc1 | mbc2 | mbc3 => rfl

/-- The ranges of WR_ROM_NOP by kind. -/
theorem decodeWrite_romNop {k : Kind} {a : Addr} (h : wrRomNopRange k a = true) (v : Byte) :
    decodeWrite k a v = .wrRomNop a v := by
  cases k with
  | none | mbc2 =>
    obtain ⟨-, hhi⟩ := within_of_addr_within (lo := 0x0000) (hi := 0x7FFF) h
    rcases rom_windows hhi with hw | hw | hw | hw <;> simp (disch := omega) only [decodeWrite, if_pos, if_neg]
  | mbc1 => cases h
  | mbc3 =>
    obtain ⟨hlo, hhi⟩ := within_of_addr_within (lo := 0x6000) (hi := 0x7FFF) h
    simp (disch := omega) only [decodeWrite, if_pos, if_neg]

/-- NONE and MBC2 have no cartridge-RAM write. -/
theorem decodeWrite_xramNop {k : Kind} {a : Addr} (hk : k = .none ∨ k = .mbc2) (ha : within a 0xA000 0xBFFF)
    (v : Byte) : decodeWrite k a v = .wrXramNop a v := by
  obtain ⟨hlo, hhi⟩ := ha
  rcases hk with rfl | rfl <;> simp (disch := omega) only [decodeWrite, if_pos, if_neg]

/-- Settles O2: a well-formed READ or WRITE lies in the window of its row, where the table answers its operation; SAVE
and LOAD are told apart by the kind. -/
theorem decodeOfEncode : Obligations.DecodeOfEncode := by
  intro k i hwf
  cases i with
  | rdRom0 a | rdRomx a | rdVram a | rdWram0 a | rdWramx a | rdEcho a | rdOam a | rdUnusable a | rdIo a =>
    obtain ⟨hlo, hhi⟩ := within_of_addr_within hwf
    refine (decode_read k a).trans (congrArg Except.ok ?_)
    simp (disch := omega) only [decodeRead, if_pos, if_neg]
  | rdXramNone a =>
    obtain ⟨rfl, hlo, hhi⟩ := kind_and_window hwf
    refine (decode_read .none a).trans (congrArg Except.ok ?_)
    simp (disch := omega) only [decodeRead, if_pos, if_neg]
  | rdXram a =>
    obtain ⟨hk, ha⟩ := Bool.and_eq_true_iff.1 hwf
    exact (decode_read k a).trans
      (congrArg Except.ok (decodeRead_xram (of_decide_eq_true hk) (within_of_addr_within ha)))
  | wrRomNop a v => exact (decode_write k a v).trans (congrArg Except.ok (decodeWrite_romNop hwf v))
  | wrXramNop a v =>
    obtain ⟨hk, ha⟩ := Bool.and_eq_true_iff.1 hwf
    exact (decode_write k a v).trans
      (congrArg Except.ok (decodeWrite_xramNop (by simpa using hk) (within_of_addr_within ha) v))
  | wrVram a v | wrWram0 a v | wrWramx a v | wrEcho a v | wrOam a v | wrUnusable a v | wrIo a v =>
    obtain ⟨hlo, hhi⟩ := within_of_addr_within hwf
    refine (decode_write k a v).trans (congrArg Except.ok ?_)
    simp (disch := omega) only [decodeWrite, if_pos, if_neg]
  | wrMbc1Ramen a v | wrMbc1Romlo a v | wrMbc1Bankhi a v | wrMbc1Mode a v | wrMbc1Xram a v | wrMbc3Enable a v
  | wrMbc3Romb a v | wrMbc3RambRtc a v | wrMbc3Xram a v =>
    obtain ⟨rfl, hlo, hhi⟩ := kind_and_window hwf
    refine (decode_write _ a v).trans (congrArg Except.ok ?_)
    simp (disch := omega) only [decodeWrite, if_pos, if_neg]
  | saveBase | loadBase =>
    obtain rfl := of_decide_eq_true hwf
    rfl
  | saveMbc | loadMbc =>
    cases k with
    | none => cases hwf
    | mbc1 | mbc2 | mbc3 => rfl

/-- Settles O3: `decode_sound` follows the decoder's branches. -/
theorem encodeOfDecode : Obligations.EncodeOfDecode :=
  fun _ _ _ => decode_sound

/-! ## The fields of a word as numbers -/

theorem opField_toNat (w : ReqWord) : (opField w).toNat = w.toNat / 2 ^ 24 := by
  have := w.isLt
  rw [opField, BitVec.extractLsb'_toNat, Nat.shiftRight_eq_div_pow]
  omega

theorem addrField_toNat (w : ReqWord) : (addrField w).toNat = w.toNat / 2 ^ 8 % 2 ^ 16 := by
  rw [addrField, BitVec.extractLsb'_toNat, Nat.shiftRight_eq_div_pow]

theorem dataField_toNat (w : ReqWord) : (dataField w).toNat = w.toNat % 2 ^ 8 := by
  rw [dataField, BitVec.extractLsb'_toNat, Nat.shiftRight_zero]

/-- Settles O1: the fields are slices of the word, and together they are the whole word. -/
theorem requestWordFields : Obligations.RequestWordFields :=
  ⟨fun w => ⟨opField_toNat w, addrField_toNat w, dataField_toNat w⟩, requestWord_fields,
    fun op a d => ⟨opField_requestWord op a d, addrField_requestWord op a d, dataField_requestWord op a d⟩⟩

/-- The word of three fields as a number (R100). -/
theorem requestWord_toNat (op : BitVec 2) (a : Addr) (d : Byte) :
    (requestWord op a d).toNat = op.toNat * 2 ^ 24 + a.toNat * 2 ^ 8 + d.toNat := by
  have hop := opField_toNat (requestWord op a d)
  have haddr := addrField_toNat (requestWord op a d)
  have hdata := dataField_toNat (requestWord op a d)
  rw [opField_requestWord] at hop
  rw [addrField_requestWord] at haddr
  rw [dataField_requestWord] at hdata
  omega

/-- Settles O9: each word is a `requestWord`, and the pseudo-requests fix the address. -/
theorem assemblerWords : Obligations.AssemblerWords := by
  refine ⟨fun a => ?_, fun a d => requestWord_toNat 0b01 a d, rfl, rfl, rfl, rfl, fun n => ⟨?_, ?_, ?_⟩⟩
  · simpa [asmRd] using requestWord_toNat 0b00 a 0
  · exact requestWord_toNat 0b01 0x2000 n
  · exact requestWord_toNat 0b01 0x4000 n
  · exact requestWord_toNat 0b01 0x6000 n

/-! ## Which words decode -/

/-- Settles O5: the READs and WRITEs decode by their tables, and the words of SAVE and LOAD are those of the kind's
two operations. -/
theorem decodeIsTotal : Obligations.DecodeIsTotal := by
  refine ⟨fun k a => ⟨_, decode_read k a⟩, fun k a d => ⟨_, decode_write k a d⟩, fun k => ?_, fun k => ?_⟩
  · cases k with
    | none => exact decodeOfEncode .none .saveBase rfl
    | mbc1 | mbc2 | mbc3 => exact decodeOfEncode _ .saveMbc rfl
  · cases k with
    | none => exact decodeOfEncode .none .loadBase rfl
    | mbc1 | mbc2 | mbc3 => exact decodeOfEncode _ .loadMbc rfl

/-- A word with a non-zero reserved field spells no operation of any kind (R104). -/
theorem decode_of_not_clear {w : ReqWord} (h : ¬ Laws.ReservedZero.clear w) (k : Kind) :
    decode k w = .error .reservedField := by
  rcases opField_cases w with hop | hop | hop | hop <;> simp_all [Laws.ReservedZero.clear, decode]

/-- Settles O8: each word is the word of its operation, or has a non-zero DATA in a READ. -/
theorem workedDecodeExamples : Obligations.WorkedDecodeExamples :=
  ⟨fun k => decodeOfEncode k (.rdRomx 0x4123) rfl, decodeOfEncode .mbc1 (.wrMbc1Romlo 0x2000 0x00) rfl,
    decodeOfEncode .mbc3 (.wrMbc3Romb 0x2000 0x00) rfl, decodeOfEncode .none (.wrRomNop 0x2000 0x00) rfl,
    decodeOfEncode .mbc2 (.wrRomNop 0x2000 0x00) rfl,
    decode_of_not_clear fun hclear => absurd (hclear.1 (by decide)) (by decide),
    fun k => decodeOfEncode k (.rdUnusable 0xFEA0) rfl⟩

/-! ## Refusals -/

/-- A READ with DATA not zero, or a SAVE or LOAD with ADDR or DATA not zero, in numbers. -/
theorem not_clear_of_toNat {w : ReqWord} (h : (opField w = 0b00 ∧ w.toNat % 2 ^ 8 ≠ 0) ∨
    ((opField w = 0b10 ∨ opField w = 0b11) ∧ w.toNat % 2 ^ 24 ≠ 0)) : ¬ Laws.ReservedZero.clear w := by
  have haddr := addrField_toNat w
  have hdata := dataField_toNat w
  rintro ⟨hread, hstream⟩
  rcases h with ⟨hop, hne⟩ | ⟨hop, hne⟩
  · have hdata0 : (dataField w).toNat = 0 := congrArg BitVec.toNat (hread hop)
    exact hne (hdata.symm.trans hdata0)
  · obtain ⟨ha, hd⟩ := hstream hop
    have haddr0 : (addrField w).toNat = 0 := congrArg BitVec.toNat ha
    have hdata0 : (dataField w).toNat = 0 := congrArg BitVec.toNat hd
    omega

/-- Settles O4: the word does not decode, and the record of a refusal sets the mark. -/
theorem reservedFieldIsRefused : Obligations.ReservedFieldIsRefused := by
  intro s r rest hf hr hq hfield
  have hstep : step s = .refused .reservedField :=
    step_of_rejected hf hr hq (decode_of_not_clear (not_clear_of_toNat hfield) s.cfg.kind)
  exact ⟨hstep, congrArg s.recordStop hstep⟩

/-- A step that is refused found the mark, or a word that spells no operation. -/
theorem step_eq_refused {s : State} {x : Refusal} (h : step s = .refused x) :
    s.fault = none ∧ (x = .reservedField ∨ (x = .stopped ∧ s.refused = true)) := by
  unfold step at h
  rcases fetch_cases s with ⟨f, -, hx⟩ | ⟨hf, hr, hx⟩ | ⟨-, -, -, hx⟩ | ⟨r, rest, e, hf, -, -, -, hx⟩ |
    ⟨r, rest, i, -, -, -, -, hx⟩ <;> rw [hx] at h
  · cases h
  · cases h
    exact ⟨hf, .inr ⟨rfl, hr⟩⟩
  · cases h
  · cases e
    cases h
    exact ⟨hf, .inl rfl⟩
  · exact absurd h (exec_ne_refused i _ x)

/-- Settles O13: a refused step found no fault, so the mark alone decides the next one. -/
theorem refusalLeavesTheBlockStuck : Obligations.RefusalLeavesTheBlockStuck := by
  intro s x h
  obtain ⟨hf, hx⟩ := step_eq_refused h
  exact ⟨congrArg s.recordStop h, step_of_refused hf rfl, hx⟩

/-! ## The tables, row by row -/

/-- The ranges, in this order, cover the numbers from `lo` up to `hi` without gap or overlap. -/
def tiles {α : Type} : Nat → List (Row α) → Nat → Bool
  | lo, [], hi => lo == hi
  | lo, r :: rows, hi => r.lo == lo && decide (r.lo ≤ r.hi) && tiles (r.hi + 1) rows hi

/-- The row's range covers the address. -/
def covers {α : Type} (a : Addr) (r : Row α) : Bool := decide (r.lo ≤ a.toNat) && decide (a.toNat ≤ r.hi)

/-- The rows that a kind has, by rising address. -/
def rowsOf {α : Type} (rows : List (Row α)) (k : Kind) : List (Row α) :=
  (rows.filter (fun r => r.kinds.contains k)).insertionSort (fun r q => r.lo ≤ q.lo)

/-- Of ranges that tile, none covers an address below them and one covers an address in them. -/
theorem length_filter_covers_of_tiles {α : Type} (a : Addr) {lo hi : Nat} {rows : List (Row α)}
    (h : tiles lo rows hi = true) (ha : a.toNat < hi) :
    (rows.filter (covers a)).length = if lo ≤ a.toNat then 1 else 0 := by
  induction rows generalizing lo with
  | nil =>
    simp only [tiles, beq_iff_eq] at h
    simp [h, ha]
  | cons r rows ih =>
    simp only [tiles, Bool.and_eq_true, beq_iff_eq, decide_eq_true_eq] at h
    obtain ⟨⟨rfl, hr⟩, hrest⟩ := h
    have hrows := ih hrest
    by_cases hc : covers a r = true
    · rw [List.filter_cons_of_pos hc, List.length_cons, hrows]
      simp only [covers, Bool.and_eq_true, decide_eq_true_eq] at hc
      rw [if_neg (by omega), if_pos hc.1]
    · rw [List.filter_cons_of_neg hc, hrows]
      simp only [covers, Bool.and_eq_true, decide_eq_true_eq] at hc
      split_ifs <;> omega

/-- Where the rows of a kind tile the address space, exactly one row of the table holds. -/
theorem length_filter_holds_of_tiles {α : Type} {rows : List (Row α)} {k : Kind}
    (h : tiles 0 (rowsOf rows k) 0x10000 = true) (a : Addr) :
    (rows.filter (fun r => r.holds k a)).length = 1 := by
  have hsplit : rows.filter (fun r => r.holds k a) =
      (rows.filter (fun r => r.kinds.contains k)).filter (covers a) := by
    simp [List.filter_filter, Row.holds, covers, Bool.and_assoc, Bool.and_comm]
  have hperm : ((rowsOf rows k).filter (covers a)).Perm
      ((rows.filter (fun r => r.kinds.contains k)).filter (covers a)) :=
    (List.perm_insertionSort ..).filter _
  rw [hsplit, ← hperm.length_eq, length_filter_covers_of_tiles a h a.isLt, if_pos (Nat.zero_le _)]

/-- Where a row of the read table holds, its operation is one the kind has and its word is the READ of the address. -/
theorem readRow_wf_encode : ∀ row ∈ readRows, ∀ k a, row.holds k a = true →
    (row.op a).wf k = true ∧ encode (row.op a) = requestWord 0b00 a 0 := by
  intro row hrow k a h
  fin_cases hrow <;> cases k <;> exact ⟨h, rfl⟩

/-- Settles O6: a row's operation is decoded from its word, and for each kind the rows' ranges tile the address
space. -/
theorem readTable : Obligations.ReadTable := by
  constructor
  · intro row hrow k a h
    obtain ⟨hwf, hw⟩ := readRow_wf_encode row hrow k a h
    exact (congrArg (decode k) hw).symm.trans (decodeOfEncode k (row.op a) hwf)
  · intro k
    exact length_filter_holds_of_tiles (by cases k <;> decide)

/-- Where a row of the write table holds, its operation is one the kind has and its word is the WRITE; the two rows of
WR_ROM_NOP have different kinds, and `wf` joins their ranges. -/
theorem writeRow_wf_encode : ∀ row ∈ writeRows, ∀ k a v, row.holds k a = true →
    (row.op a v).wf k = true ∧ encode (row.op a v) = requestWord 0b01 a v := by
  intro row hrow k a v h
  fin_cases hrow
  · cases k with
    | none | mbc1 | mbc2 => exact ⟨h, rfl⟩
    | mbc3 => cases h
  · cases k with
    | none | mbc1 | mbc2 => cases h
    | mbc3 => exact ⟨h, rfl⟩
  all_goals cases k <;> exact ⟨h, rfl⟩

/-- Settles O7: as in the read table, `decodeOfEncode` answers a row and the ranges tile the address space by kind. -/
theorem writeTable : Obligations.WriteTable := by
  constructor
  · intro row hrow k a v h
    obtain ⟨hwf, hw⟩ := writeRow_wf_encode row hrow k a v h
    exact (congrArg (decode k) hw).symm.trans (decodeOfEncode k (row.op a v) hwf)
  · intro k
    exact length_filter_holds_of_tiles (by cases k <;> decide)

/-! ## The response -/

theorem responds_iff_of_read {t : State} {v : Byte} (h : t.response = some v) (a : Addr) :
    t.response ≠ none ↔ opField (requestWord 0b00 a 0) = 0b00 := by
  simp [h]

theorem responds_iff_of_other {t : State} (h : t.response = none) {op : BitVec 2} (hop : op ≠ 0b00) (a : Addr)
    (d : Byte) : t.response ≠ none ↔ opField (requestWord op a d) = 0b00 := by
  simpa [h] using hop

theorem GatedStored.response {s t : State} {a : Addr} {v : Byte} (h : GatedStored s t a v) :
    t.response = s.response := by
  rcases h with ⟨-, rfl⟩ | ⟨-, -, rfl⟩ <;> simp

/-- From a cleared response port, exactly the operations whose word is a READ fill it. -/
theorem Effect.responds_iff {i : Instr} {s t : State} (h : Effect i s t) (hs : s.response = none) :
    t.response ≠ none ↔ opField (encode i) = 0b00 := by
  cases i with
  | rdRom0 a | rdRomx a | rdVram a | rdXram a | rdWram0 a | rdWramx a | rdEcho a | rdOam a =>
    obtain ⟨v, rfl⟩ := h
    exact responds_iff_of_read rfl a
  | rdXramNone a | rdUnusable a | rdIo a =>
    cases h
    exact responds_iff_of_read rfl a
  | wrVram a v | wrWram0 a v | wrWramx a v | wrOam a v =>
    obtain ⟨-, rfl⟩ := h
    exact responds_iff_of_other ((State.putBuffer_response ..).trans hs) (by decide) a v
  | wrMbc1Xram a v => exact responds_iff_of_other ((GatedStored.response h).trans hs) (by decide) a v
  | wrRomNop a v | wrXramNop a v | wrUnusable a v | wrIo a v | wrMbc1Romlo a v | wrMbc3Romb a v =>
    cases h
    exact responds_iff_of_other hs (by decide) a v
  | wrMbc1Ramen a v =>
    cases h
    exact responds_iff_of_other ((mbc1RamEnable_response s v).trans hs) (by decide) a v
  | wrMbc3Enable a v =>
    cases h
    exact responds_iff_of_other ((mbc3Enable_response s v).trans hs) (by decide) a v
  | wrEcho a v =>
    refine responds_iff_of_other ?_ (by decide) a v
    rcases h with rfl | ⟨-, ⟨-, rfl⟩ | ⟨-, rfl⟩⟩ <;> simp [hs]
  | wrMbc1Bankhi a v | wrMbc1Mode a v =>
    refine responds_iff_of_other ?_ (by decide) a v
    rcases h with ⟨-, rfl⟩ | ⟨-, rfl⟩ <;> exact hs
  | wrMbc3RambRtc a v =>
    refine responds_iff_of_other ?_ (by decide) a v
    rcases h with ⟨-, -, -, rfl⟩ | ⟨-, rfl⟩ | rfl <;> exact hs
  | wrMbc3Xram a v =>
    refine responds_iff_of_other ?_ (by decide) a v
    rcases h with ⟨-, i, rfl⟩ | ⟨-, hg⟩
    · exact hs
    · exact hg.response.trans hs
  | saveBase | loadBase =>
    cases h
    exact responds_iff_of_other hs (by decide) 0 0
  | saveMbc =>
    refine responds_iff_of_other ?_ (by decide) 0 0
    rcases h with rfl | rfl <;> exact hs
  | loadMbc =>
    refine responds_iff_of_other ?_ (by decide) 0 0
    rcases h with rfl | rfl | rfl | rfl <;> exact hs

/-- Settles O52: taking a request clears the port, and the request's word is the word of the operation that runs. -/
theorem onlyReadsRespond : Obligations.OnlyReadsRespond := by
  intro s t r rest hq h
  rcases step_effect h with ⟨hnil, -⟩ | ⟨r', rest', i, -, -, hq', hd, he⟩
  · simp [hq] at hnil
  · obtain ⟨rfl, rfl⟩ := List.cons.inj (hq.symm.trans hq')
    rw [← (decode_sound hd).2]
    exact he.responds_iff rfl

/-! ## The bus accesses -/

/-- The read table carried out is `BusRead` (R110). -/
theorem exec_decodeRead (s : State) (a : Addr) : exec (decodeRead s.cfg.kind a) s = busRead a s := by
  by_cases ha : within a 0xA000 0xBFFF
  · obtain ⟨hlo, hhi⟩ := ha
    simp (disch := omega) only [decodeRead, busRead, baseRead, ctlRead, if_pos, if_neg]
    cases s.cfg.kind <;> rfl
  · rw [busRead_eq_baseRead ha]
    rcases addr_regions a with h | h | h | h | h | h | h | h | h | h
    case inr.inr.inr.inl => exact absurd h ha
    all_goals
      simp (disch := omega) only [decodeRead, baseRead, if_pos, if_neg]
      rfl

/-- The write table carried out is `BusWrite` (R110). -/
theorem exec_decodeWrite (s : State) (a : Addr) (v : Byte) :
    exec (decodeWrite s.cfg.kind a v) s = busWrite a v s := by
  by_cases hrom : a.toNat ≤ 0x7FFF
  · rcases rom_windows hrom with h | h | h | h <;>
      simp (disch := omega) only [decodeWrite, busWrite, baseWrite, mbc1Write, mbc3Write, if_pos, if_neg] <;>
      cases s.cfg.kind <;> rfl
  by_cases ha : within a 0xA000 0xBFFF
  · obtain ⟨hlo, hhi⟩ := ha
    simp (disch := omega) only [decodeWrite, busWrite, baseWrite, mbc1Write, mbc3Write, if_pos, if_neg]
    cases s.cfg.kind <;> rfl
  · rw [busWrite_eq_baseWrite (by omega) ha]
    unfold within at ha
    rcases addr_regions a with h | h | h | h | h | h | h | h | h | h
    case inl | inr.inl | inr.inr.inr.inl => omega
    all_goals
      simp (disch := omega) only [decodeWrite, baseWrite, if_pos, if_neg]
      rfl

/-- Settles O54: a READ or a WRITE decodes by its table, and each table carried out is the bus access. -/
theorem requestsAreTheBusAccesses : Obligations.RequestsAreTheBusAccesses := by
  refine ⟨fun s a i hd => ?_, fun s a v i hd => ?_, fun s a => ?_⟩
  · cases (decode_read s.cfg.kind a).symm.trans hd
    exact exec_decodeRead s a
  · cases (decode_write s.cfg.kind a v).symm.trans hd
    exact exec_decodeWrite s a v
  · unfold busRead
    cases s.cfg.kind <;> rfl

end Sys2Proof.Machine
end

section
open Sys2Proof.Claims

namespace Sys2Proof.Machine

/-! # The statements of spec/40_dispatcher.md

## Which request word runs an operation -/

theorem addr_within_of_within {a : Addr} {lo hi : Nat} (h : within a lo hi) : a.within lo hi = true := by
  simpa [Addr.within, within] using h

/-- A READ runs the operation of the kind that has its word. -/
theorem readsAs_of_wf {k : Kind} {a : Addr} {i : Instr} (hwf : i.wf k = true)
    (hw : encode i = requestWord 0b00 a 0) : readsAs k a i :=
  (congrArg (decode k) hw).symm.trans (decodeOfEncode k i hwf)

/-- A WRITE runs the operation of the kind that has its word. -/
theorem writesAs_of_wf {k : Kind} {a : Addr} {v : Byte} {i : Instr} (hwf : i.wf k = true)
    (hw : encode i = requestWord 0b01 a v) : writesAs k a v i :=
  (congrArg (decode k) hw).symm.trans (decodeOfEncode k i hwf)

/-! ## The shared accesses, run to their end -/

theorem deliver_romRead_of_some {s : State} {off : Nat} {b : Byte} (h : romAnswer s.cfg.rom off = some b) :
    deliver s (romRead s off) = .next (s.respond b) :=
  deliver_eq_next.2 ⟨b, romRead_eq_ok.2 h, rfl⟩

theorem deliver_romRead_of_none {s : State} {off : Nat} (h : romAnswer s.cfg.rom off = none) :
    deliver s (romRead s off) = .fault (.romUnmapped off) :=
  deliver_eq_fault.2 (romRead_eq_error.2 ⟨h, rfl⟩)

theorem deliver_loadByte_of_lt {s : State} {b : Buf} {i : Nat} (hi : i < bufSize s.cfg b) :
    deliver s (loadByte s b i) = .next (s.respond ((s.buffer b).read i)) :=
  deliver_eq_next.2 ⟨_, loadByte_eq_ok.2 ⟨hi, rfl⟩, rfl⟩

/-- A buffer read returns the byte at its index, or faults at or beyond the length (R133, R136, R286). -/
theorem deliver_loadByte (s : State) (b : Buf) (i : Nat) :
    deliver s (loadByte s b i) =
      if i < bufSize s.cfg b then .next (s.respond ((s.buffer b).read i)) else .fault (.bounds b i) := by
  split
  · exact deliver_loadByte_of_lt ‹_›
  · exact deliver_eq_fault.2 (loadByte_eq_error.2 ⟨by omega, rfl⟩)

/-- A store in bounds writes its byte and leaves every other byte and field. -/
theorem storesAt_storeByte {s : State} {b : Buf} {i : Nat} (hi : i < bufSize s.cfg b) (v : Byte) :
    storesAt (storeByte s b i v) s b i v :=
  ⟨_, storeByte_eq_next.2 ⟨hi, rfl⟩, fun c j => putBuffer_write_read s b c i j v, by cases b <;> rfl⟩

/-- A buffer write stores its byte, or faults at or beyond the length (R142, R146, R286). -/
theorem storeByte_storesAt_or_bounds (s : State) (b : Buf) (i : Nat) (v : Byte) :
    if i < bufSize s.cfg b then storesAt (storeByte s b i v) s b i v
    else storeByte s b i v = .fault (.bounds b i) := by
  split
  · exact storesAt_storeByte ‹_› v
  · exact storeByte_eq_fault.2 ⟨by omega, rfl⟩

/-! ## Reads -/

/-- Settles O14: both operations are reads of the collaborator; the invariant bounds the bank, and fixes it at the
address's own page for the kinds that cannot switch it. -/
theorem romReadsReturnTheCollaboratorsByte : Obligations.RomReadsReturnTheCollaboratorsByte := by
  refine ⟨fun k a ha => readsAs_of_wf (addr_within_of_within ha) rfl,
    fun s a b _ hrom => deliver_romRead_of_some hrom, fun s a _ hrom => deliver_romRead_of_none hrom,
    fun k a ha => readsAs_of_wf (addr_within_of_within ha) rfl,
    fun s a b _ hrom => exec_rdRomx_of_answer hrom, fun s a _ hrom => deliver_romRead_of_none hrom,
    fun s a hs ha => ⟨Nat.le_of_lt_succ (hs.romxOffset_lt ha), fun hk => ?_⟩⟩
  obtain ⟨hbank, -, -⟩ := hs.fixedKinds hk
  obtain ⟨hlo, -⟩ := ha
  omega

theorem readsAs_rdEcho {a : Addr} (ha : within a 0xE000 0xFDFF) (k : Kind) : readsAs k a (.rdEcho a) :=
  readsAs_of_wf (addr_within_of_within ha) rfl

/-- The echo's target lies in the first 0x1E00 bytes of ROM (R137). -/
theorem echoTarget_le {a : Addr} (ha : within a 0xE000 0xFDFF) : (echoTarget a).toNat ≤ 0x1DFF := by
  obtain ⟨hlo, hhi⟩ := ha
  rw [echoTarget_toNat hlo]
  omega

/-- The base table reads the first ROM bank as RD_ROM0 does. -/
theorem baseRead_rom0 {a : Addr} (ha : a.toNat ≤ 0x3FFF) (s : State) :
    baseRead a s = deliver s (romRead s (rom0Offset a)) :=
  if_pos ha

/-- RD_ECHO as a ROM read at the address less 0xE000. -/
theorem exec_rdEcho_sub {a : Addr} (ha : within a 0xE000 0xFDFF) (s : State) :
    exec (.rdEcho a) s = deliver s (romRead s (a.toNat - 0xE000)) := by
  rw [exec_rdEcho, rom0Offset, echoTarget_toNat ha.1]

/-- A READ that runs RD_ECHO is one of its operand, and of an echo address. -/
theorem within_of_readsAs_rdEcho {k : Kind} {a b : Addr} (h : readsAs k a (.rdEcho b)) : within a 0xE000 0xFDFF := by
  obtain ⟨hwf, hw⟩ := decode_sound h
  obtain ⟨-, rfl, -⟩ := requestWord_inj hw
  exact within_of_addr_within hwf

/-- Settles O15: the target is a ROM address, and no controller claims a read there. -/
theorem echoReadsAreReadsOfTheTarget : Obligations.EchoReadsAreReadsOfTheTarget := by
  refine ⟨fun k a ha => readsAs_rdEcho ha k, fun s a ha => ?_, fun s a b ha hrom => ?_, fun s a ha hrom => ?_,
    fun k a b ha h => ?_⟩
  · have htarget := echoTarget_le ha
    have hbase : exec (.rdEcho a) s = baseRead (echoTarget a) s := (baseRead_rom0 (by omega) s).symm
    have hbus : busRead (echoTarget a) s = baseRead (echoTarget a) s :=
      busRead_eq_baseRead (by unfold within; omega) s
    exact ⟨echoTarget_toNat ha.1, htarget, hbase, hbase.trans hbus.symm,
      requestsAreTheBusAccesses.1 s a _ (readsAs_rdEcho ha _)⟩
  · exact (exec_rdEcho_sub ha s).trans (deliver_romRead_of_some hrom)
  · exact (exec_rdEcho_sub ha s).trans (deliver_romRead_of_none hrom)
  · obtain ⟨-, hhi⟩ := within_of_readsAs_rdEcho h
    obtain ⟨hlo, -⟩ := ha
    omega

/-- Settles O16: each operation is a buffer read at its mapped index; WRAM bank 0 and OAM lie whole in their buffer,
and the invariant keeps the two banked indexes inside theirs. -/
theorem bufferReadsReturnTheMappedByte : Obligations.BufferReadsReturnTheMappedByte := by
  refine ⟨fun k a => ⟨?_, ?_, ?_, ?_⟩, fun s a _ => ?_, fun s a ha => ?_, fun s a _ => ?_, fun s a ha => ?_,
    fun s a hs => ⟨fun ha => ?_, fun ha => ?_⟩⟩
  iterate 4 exact fun ha => readsAs_of_wf (addr_within_of_within ha) rfl
  · exact bufSize_vram s.cfg ▸ deliver_loadByte s .vram (vramIndex s a)
  · exact (exec_rdWram0 a s).trans (deliver_loadByte_of_lt (wram0Index_lt ha.2 s.cfg))
  · exact bufSize_wram s.cfg ▸ deliver_loadByte s .wram (wramxIndex s a)
  · exact (exec_rdOam a s).trans (deliver_loadByte_of_lt (oamIndex_lt ha.2 s.cfg))
  · exact bufSize_vram s.cfg ▸ hs.vramIndex_lt ha
  · exact bufSize_wram s.cfg ▸ hs.wramxIndex_lt ha

/-- Settles O17: neither operation looks at the state. -/
theorem fixedByteReads : Obligations.FixedByteReads :=
  ⟨fun _ ha => readsAs_of_wf (addr_within_of_within ha) rfl, fun s a _ => exec_rdXramNone a s,
    fun _ _ ha => readsAs_of_wf (addr_within_of_within ha) rfl, fun s a _ => exec_rdUnusable a s⟩

/-- Settles O18: the byte is the I/O port's next draw. -/
theorem ioReadReturnsADraw : Obligations.IoReadReturnsADraw :=
  ⟨fun _ _ ha => readsAs_of_wf (addr_within_of_within ha) rfl,
    fun s a _ => ⟨Config.ioByte s.ioDraws a, exec_rdIo a s⟩⟩

/-! ## Writes -/

/-- Settles O19: each kind is among those of its row, and the operations answer the state they got. -/
theorem noOperationWrites : Obligations.NoOperationWrites := by
  refine ⟨fun a v => ⟨fun ha => ⟨?_, ?_⟩, fun ha => ?_, fun ha => ⟨?_, ?_⟩⟩, fun k a v ha => ?_,
    fun s a v => ⟨exec_wrRomNop a v s, exec_wrXramNop a v s, exec_wrUnusable a v s⟩⟩
  all_goals exact writesAs_of_wf (addr_within_of_within ha) rfl

/-- Settles O20: each operation is a store at its mapped index; WRAM bank 0 and OAM lie whole in their buffer. -/
theorem bufferWritesStoreTheByte : Obligations.BufferWritesStoreTheByte := by
  refine ⟨fun k a v => ⟨?_, ?_, ?_, ?_⟩, fun s a v _ => ?_, fun s a v ha => ?_, fun s a v _ => ?_,
    fun s a v ha => ?_⟩
  iterate 4 exact fun ha => writesAs_of_wf (addr_within_of_within ha) rfl
  · exact bufSize_vram s.cfg ▸ storeByte_storesAt_or_bounds s .vram (vramIndex s a) v
  · exact storesAt_storeByte (wram0Index_lt ha.2 s.cfg) v
  · exact bufSize_wram s.cfg ▸ storeByte_storesAt_or_bounds s .wram (wramxIndex s a) v
  · exact storesAt_storeByte (oamIndex_lt ha.2 s.cfg) v

/-- The MBC1 enable write sets the gate where a RAM bank is declared (R191). -/
theorem mbc1RamEnable_eq (v : Byte) (s : State) :
    mbc1RamEnable v s =
      { s with ramEnabled := if 1 ≤ s.cfg.ramBankCount then decide (v.toNat % 16 = 0xA) else s.ramEnabled } := by
  rw [mbc1RamEnable, enableTest_eq]
  split <;> rfl

/-- The MBC3 enable write sets the gate where a RAM bank is declared, and `rtc_enabled` always (R231). -/
theorem mbc3Enable_eq (v : Byte) (s : State) :
    mbc3Enable v s =
      { s with
        ramEnabled := if 1 ≤ s.cfg.ramBankCount then decide (v.toNat % 16 = 0xA) else s.ramEnabled
        rtcEnabled := decide (v.toNat % 16 = 0xA) } := by
  rw [mbc3Enable, enableTest_eq]
  split <;> rfl

/-- The base table has no write below 0x8000 (R140, R141). -/
theorem baseWrite_rom {a : Addr} (ha : a.toNat ≤ 0x7FFF) (v : Byte) (s : State) : baseWrite a v s = .next s :=
  if_pos ha

theorem exec_wrEcho_base {s : State} (he : s.cfg.echoReentry = .base) (a : Addr) (v : Byte) :
    exec (.wrEcho a v) s = .next s := by
  rw [exec_wrEcho, he]

/-- Under FULL an echo write is the controller's write of the target, which lies in the enable window (R145). -/
theorem exec_wrEcho_full {s : State} {a : Addr} (ha : within a 0xE000 0xFDFF) (he : s.cfg.echoReentry = .full)
    (v : Byte) : exec (.wrEcho a v) s = busWrite (echoTarget a) v s := by
  have htarget := echoTarget_le ha
  rw [exec_wrEcho, he]
  unfold busWrite
  cases s.cfg.kind with
  | none | mbc2 => exact (baseWrite_rom (by omega) v s).symm
  | mbc1 | mbc3 => exact (if_pos (by omega)).symm

/-- Which gates an echo write sets under FULL, by kind (R147). -/
theorem exec_wrEcho_full_gates {s : State} (he : s.cfg.echoReentry = .full) (a : Addr) (v : Byte) :
    exec (.wrEcho a v) s = .next { s with
      ramEnabled := if (s.cfg.kind = .mbc1 ∨ s.cfg.kind = .mbc3) ∧ 1 ≤ s.cfg.ramBankCount
        then decide (v.toNat % 16 = 0xA) else s.ramEnabled,
      rtcEnabled := if s.cfg.kind = .mbc3 then decide (v.toNat % 16 = 0xA) else s.rtcEnabled } := by
  rw [exec_wrEcho, he]
  cases hk : s.cfg.kind with
  | none | mbc2 => simp
  | mbc1 => simp [mbc1RamEnable_eq]
  | mbc3 => simp [mbc3Enable_eq]

/-- Settles O21: the target lies in the ROM range, where the base table has no write, and in the enable window of MBC1
and MBC3. -/
theorem echoWritesReenterAsConfigured : Obligations.EchoWritesReenterAsConfigured := by
  refine ⟨fun k a v ha => writesAs_of_wf (addr_within_of_within ha) rfl, fun s a v ha he => ?_,
    fun s a v ha he => ⟨exec_wrEcho_full ha he v, exec_wrEcho_full_gates he a v⟩⟩
  have htarget : (a - 0xE000).toNat ≤ 0x1DFF := echoTarget_le ha
  have hsame := exec_wrEcho_base he a v
  exact ⟨hsame.trans (baseWrite_rom (by omega) v s).symm, hsame⟩

/-- Settles O22: the event is the only field the I/O port's write changes. -/
theorem ioWriteRecordsTheEvent : Obligations.IoWriteRecordsTheEvent :=
  ⟨fun _ _ _ ha => writesAs_of_wf (addr_within_of_within ha) rfl, fun s a v => exec_wrIo a v s⟩

end Sys2Proof.Machine
end

section
open Sys2Proof.Claims

namespace Sys2Proof.Machine

/-! # The statements of spec/41_controller_base.md

## Cartridge RAM behind its gate -/

/-- The gated read of a kind with cartridge RAM (R171): 0xFF behind the closed gate, before any bounds check. -/
theorem deliver_xramRead {s : State} (hk : s.cfg.kind ≠ .none) (a : Addr) :
    deliver s (xramRead s a) =
      if s.ramEnabled = false then .next (s.respond 0xFF)
      else if xramIndex s a < s.cfg.cartRamSize then .next (s.respond (s.cartRam.read (xramIndex s a)))
      else .fault (.bounds .cartRam (xramIndex s a)) := by
  split
  next hgate => rw [xramRead_closed hgate]; rfl
  next hgate =>
    rw [xramRead_open (Bool.eq_true_of_not_eq_false hgate), ← bufSize_cartRam hk]
    exact deliver_loadByte s .cartRam (xramIndex s a)

/-- The gated store of a kind with cartridge RAM (R175): nothing behind the closed gate, before any bounds check. -/
theorem ramStore_gated {s : State} (hk : s.cfg.kind ≠ .none) (a : Addr) (v : Byte) :
    if s.ramEnabled = false then ramStore a v s = .next s
    else if xramIndex s a < s.cfg.cartRamSize then storesAt (ramStore a v s) s .cartRam (xramIndex s a) v
    else ramStore a v s = .fault (.bounds .cartRam (xramIndex s a)) := by
  split
  next hgate => exact ramStore_closed hgate a v
  next hgate =>
    rw [ramStore_open (Bool.eq_true_of_not_eq_false hgate), ← bufSize_cartRam hk]
    exact storeByte_storesAt_or_bounds s .cartRam (xramIndex s a) v

/-- Outside the RTC path RD_XRAM is the gated read (R171, R240). -/
theorem exec_rdXram_gated {s : State}
    (hpath : s.cfg.kind ≠ .mbc3 ∨ s.cfg.rtcReadPath = .cartRam ∨ s.ramBankIndex ≠ -1) (a : Addr) :
    exec (.rdXram a) s = deliver s (xramRead s a) := by
  rw [exec_rdXram]
  refine if_neg fun ⟨hk, hfile, hmode⟩ => ?_
  rcases hpath with h | h | h
  · exact h hk
  · cases h.symm.trans hfile
  · exact h hmode

/-- Settles O23: the operation is the gated read, and the invariant keeps the gate of MBC2 closed. -/
theorem cartRamReadIsGated : Obligations.CartRamReadIsGated := by
  refine ⟨fun k a hk ha => ?_, fun s a _ hk hpath => ?_, fun s hs hk => ?_⟩
  · exact (decode_read k a).trans (congrArg Except.ok (decodeRead_xram hk ha))
  · exact (exec_rdXram_gated hpath a).trans (deliver_xramRead hk a)
  · obtain ⟨-, -, hgate⟩ := hs.fixedKinds (.inr hk)
    exact hgate

/-- Settles O26: both operations are the gated store, that of MBC3 outside RTC mode. -/
theorem cartRamWriteIsGated : Obligations.CartRamWriteIsGated := by
  refine ⟨fun a v ha => ⟨?_, ?_⟩, fun s a v _ hk => ?_, fun s a v _ hk hmode => ?_⟩
  iterate 2 exact writesAs_of_wf (addr_within_of_within ha) rfl
  · exact exec_wrMbc1Xram a v s ▸ ramStore_gated (by simp [hk]) a v
  · have hx : exec (.wrMbc3Xram a v) s = ramStore a v s := if_neg hmode
    exact hx ▸ ramStore_gated (by simp [hk]) a v

/-! ## Reads that fall through -/

/-- Only the cartridge-RAM window reads differently under different kinds (R172). -/
theorem decodeRead_eq_of_not_within {a : Addr} (ha : ¬ within a 0xA000 0xBFFF) (j k : Kind) :
    decodeRead j a = decodeRead k a := by
  unfold within at ha
  rcases addr_regions a with h | h | h | h | h | h | h | h | h | h
  case inr.inr.inr.inl => exact absurd h ha
  all_goals simp (disch := omega) only [decodeRead, if_pos, if_neg]

/-- Settles O25: the bus read looks at the kind in the cartridge-RAM window only, and so does the read table. -/
theorem readsFallThroughForEveryKind : Obligations.ReadsFallThroughForEveryKind := by
  refine ⟨fun s a ha => busRead_eq_baseRead ha s, fun j k a ha => ?_⟩
  rw [decode_read, decode_read, decodeRead_eq_of_not_within ha j k]

/-! ## The closed gate isolates cartridge RAM

Two runs that differ in cartridge RAM alone are compared by one equation per shared operation, as for the RTC file:
other contents put in before the operation, or after it into its next state. -/

/-- The result with other contents of cartridge RAM in its next state. -/
def resultPutCartRam (m : Memory) : Result → Result
  | .next t => .next (t.putBuffer .cartRam m)
  | .fault f => .fault f
  | .refused x => .refused x

/-- A branch on what other contents of cartridge RAM leave alone. -/
theorem resultPutCartRam_ite {c : Prop} [Decidable c] {m : Memory} {x y x' y' : Result}
    (hx : x' = resultPutCartRam m x) (hy : y' = resultPutCartRam m y) :
    (if c then x' else y') = resultPutCartRam m (if c then x else y) := by
  split
  · exact hx
  · exact hy

theorem deliver_putCartRam (s : State) (m : Memory) (x : Except Fault Byte) :
    deliver (s.putBuffer .cartRam m) x = resultPutCartRam m (deliver s x) := by
  cases x <;> rfl

/-- A store to another buffer does not see cartridge RAM. -/
theorem storeByte_putCartRam (s : State) (m : Memory) {b : Buf} (hb : b ≠ .cartRam) (i : Nat) (v : Byte) :
    storeByte (s.putBuffer .cartRam m) b i v = resultPutCartRam m (storeByte s b i v) := by
  cases b with
  | cartRam => exact absurd rfl hb
  | vram | wram | oam => exact resultPutCartRam_ite rfl rfl

theorem rtcWrite_putCartRam (s : State) (m : Memory) (v : Byte) :
    rtcWrite v (s.putBuffer .cartRam m) = resultPutCartRam m (rtcWrite v s) := by
  cases h : rtcIndex s.cfg.rtcIndexMap s.rtcSelect <;> simp [rtcWrite, resultPutCartRam, h, State.putBuffer]

/-- An echo write sets at most the gates. -/
theorem exec_wrEcho_putCartRam (s : State) (m : Memory) (a : Addr) (v : Byte) :
    exec (.wrEcho a v) (s.putBuffer .cartRam m) = resultPutCartRam m (exec (.wrEcho a v) s) := by
  cases he : s.cfg.echoReentry with
  | base => rw [exec_wrEcho_base he, exec_wrEcho_base (s := s.putBuffer .cartRam m) he]; rfl
  | full => rw [exec_wrEcho_full_gates he, exec_wrEcho_full_gates (s := s.putBuffer .cartRam m) he]; rfl

section
variable {s : State} (hgate : s.ramEnabled = false)
include hgate

/-- Behind the closed gate the store is discarded, whatever cartridge RAM holds. -/
theorem ramStore_closed_putCartRam (m : Memory) (a : Addr) (v : Byte) :
    ramStore a v (s.putBuffer .cartRam m) = resultPutCartRam m (ramStore a v s) := by
  rw [ramStore_closed hgate, ramStore_closed (s := s.putBuffer .cartRam m) hgate]
  rfl

/-- Behind the closed gate RD_XRAM returns 0xFF or an RTC byte, whatever cartridge RAM holds. -/
theorem exec_rdXram_closed_putCartRam (m : Memory) (a : Addr) :
    exec (.rdXram a) (s.putBuffer .cartRam m) = resultPutCartRam m (exec (.rdXram a) s) := by
  rw [exec_rdXram, exec_rdXram, xramRead_closed hgate, xramRead_closed (s := s.putBuffer .cartRam m) hgate]
  exact resultPutCartRam_ite (deliver_putCartRam s m (rtcRead s)) (deliver_putCartRam s m _)

/-- While the gate is closed the operation of a READ or a WRITE ends the same with any other contents of cartridge
RAM, and leaves them as they are. -/
theorem exec_closed_putCartRam {i : Instr} (hi : opField (encode i) = 0b00 ∨ opField (encode i) = 0b01) (m : Memory) :
    exec i (s.putBuffer .cartRam m) = resultPutCartRam m (exec i s) := by
  cases i with
  | rdRom0 | rdRomx | rdVram | rdWram0 | rdWramx | rdEcho => exact deliver_putCartRam s m _
  | rdOam a => exact deliver_putCartRam s m (loadByte s .oam (oamIndex a))
  | rdXram a => exact exec_rdXram_closed_putCartRam hgate m a
  | rdXramNone | rdUnusable | rdIo => rfl
  | wrRomNop | wrXramNop | wrUnusable | wrIo => rfl
  | wrVram | wrWram0 | wrWramx => exact storeByte_putCartRam s m (by decide) _ _
  | wrOam a v => exact storeByte_putCartRam s m (b := .oam) (by decide) (oamIndex a) v
  | wrEcho a v => exact exec_wrEcho_putCartRam s m a v
  | wrMbc1Ramen a v => rw [exec_wrMbc1Ramen, exec_wrMbc1Ramen, mbc1RamEnable_eq, mbc1RamEnable_eq]; rfl
  | wrMbc3Enable a v => rw [exec_wrMbc3Enable, exec_wrMbc3Enable, mbc3Enable_eq, mbc3Enable_eq]; rfl
  | wrMbc1Romlo | wrMbc3Romb => rfl
  | wrMbc1Bankhi | wrMbc1Mode => exact resultPutCartRam_ite rfl rfl
  | wrMbc3RambRtc => exact resultPutCartRam_ite rfl (resultPutCartRam_ite rfl rfl)
  | wrMbc1Xram a v => exact ramStore_closed_putCartRam hgate m a v
  | wrMbc3Xram a v =>
    exact resultPutCartRam_ite (rtcWrite_putCartRam s m v) (ramStore_closed_putCartRam hgate m a v)
  | saveBase | saveMbc | loadBase | loadMbc => exact absurd hi (by decide)

/-- While the gate is closed a step that finds a READ or a WRITE ends the same with any other contents of cartridge
RAM, and leaves them as they are. -/
theorem step_closed_putCartRam (hbus : busRequestPending s) (m : Memory) :
    step (s.putBuffer .cartRam m) = resultPutCartRam m (step s) := by
  obtain ⟨r, rest, hq, hop⟩ := hbus
  rcases fetch_cases s with ⟨f, hf, -⟩ | ⟨hf, hr, -⟩ | ⟨-, -, hnil, -⟩ | ⟨r', rest', e, hf, hr, hq', hd, -⟩ |
    ⟨r', rest', i, hf, hr, hq', hd, -⟩
  · rw [step_of_fault hf, step_of_fault (s := s.putBuffer .cartRam m) hf]; rfl
  · rw [step_of_refused hf hr, step_of_refused (s := s.putBuffer .cartRam m) hf hr]; rfl
  · simp [hq] at hnil
  · rw [step_of_rejected hf hr hq' hd, step_of_rejected (s := s.putBuffer .cartRam m) hf hr hq' hd]; rfl
  · obtain ⟨rfl, rfl⟩ := List.cons.inj (hq.symm.trans hq')
    rw [step_of_run hf hr hq hd, step_of_run (s := s.putBuffer .cartRam m) hf hr hq hd]
    rw [← (decode_sound hd).2] at hop
    exact exec_closed_putCartRam (s := s.accept r rest) hgate hop m

end

/-- Settles O27: with the state's own contents put in, the same equation says that the step leaves them unchanged. -/
theorem closedGateIsolatesCartRam : Obligations.ClosedGateIsolatesCartRam := by
  intro s m hgate hbus
  have hother := step_closed_putCartRam hgate hbus m
  refine ⟨fun t h => ⟨?_, ?_⟩, fun f h => ?_, fun x h => ?_⟩
  · have hown : step s = resultPutCartRam s.cartRam (step s) := step_closed_putCartRam hgate hbus s.cartRam
    rw [h] at hown
    injection hown with ht
    exact (congrArg State.cartRam ht).trans rfl
  all_goals
    rw [h] at hother
    exact hother

end Sys2Proof.Machine
end

section
open Sys2Proof.Claims

namespace Sys2Proof.Machine

/-! # The statements of spec/42_mbc1.md

## The aliased selector -/

theorem mod_32_alias1 (n : BitVec 7) :
    (alias1 n).toNat % 32 = if n.toNat % 32 = 0 then 1 else n.toNat % 32 := by
  rw [alias1_toNat]
  split <;> omega

/-- Aliasing changes no high bit, and a low-bits write keeps nothing else (R195). -/
theorem withLowBits_alias1 (n : BitVec 7) (v : Byte) : withLowBits (alias1 n) v = withLowBits n v := by
  have hhigh : (alias1 n).toNat / 32 = n.toNat / 32 := by
    rw [alias1_toNat]
    split <;> omega
  apply BitVec.eq_of_toNat_eq
  rw [withLowBits_toNat, withLowBits_toNat, hhigh]

/-- A high-bits write keeps the low bits, aliased or still to be aliased (R195). -/
theorem alias1_withHighBits_alias1 (n : BitVec 7) (v : Byte) :
    alias1 (withHighBits (alias1 n) v) = alias1 (withHighBits n v) := by
  apply BitVec.eq_of_toNat_eq
  simp only [alias1_toNat (withHighBits _ v), withHighBits_toNat, mod_32_alias1]
  by_cases hlow : n.toNat % 32 = 0
  · rw [if_pos hlow]
    simp [hlow]
  · rw [if_neg hlow]

/-- Settles O32: aliasing before a selector write makes no difference to the aliased selector after it. -/
theorem aliasedAndUnaliasedSelectorsAgree : Obligations.AliasedAndUnaliasedSelectorsAgree := by
  intro n ws
  have hwrite : ∀ m w, alias1 (selectorWrite (alias1 m) w) = alias1 (selectorWrite m w)
    | m, (false, v) => congrArg alias1 (withLowBits_alias1 m v)
    | m, (true, v) => alias1_withHighBits_alias1 m v
  rw [List.foldl_hom alias1 hwrite]
  rfl

/-! ## The writes -/

/-- A new selector maps its aliased bank and changes nothing else (R193, R194). -/
theorem setMbc1RomBank_eq (n : BitVec 7) (s : State) :
    setMbc1RomBank n s = { s with
      romBank := n, romBankOffset := (if n.toNat % 32 = 0 then n.toNat + 1 else n.toNat) * 0x4000 } := by
  rw [setMbc1RomBank, mbc1RomOffset_eq]

/-- Settles O29: the selector is composed of its own bits 6:5 and the byte's low five, and aliased when mapped. -/
theorem mbc1RomLowWrite : Obligations.Mbc1RomLowWrite := by
  refine ⟨fun a v ha => writesAs_of_wf (addr_within_of_within ha) rfl, fun s a v => ?_, fun n => ?_⟩
  · exact ⟨withLowBits s.romBank v, withLowBits_toNat s.romBank v,
      (exec_wrMbc1Romlo a v s).trans (congrArg Host.Outcome.next (setMbc1RomBank_eq _ s))⟩
  · obtain ⟨hlo, hhi⟩ := alias1_range n
    refine ⟨alias1_toNat n, hlo, hhi, ?_⟩
    rw [mod_32_alias1]
    split <;> omega

/-- Settles O30: the mode decides which register takes the byte's low two bits. -/
theorem mbc1BankHighWrite : Obligations.Mbc1BankHighWrite := by
  refine ⟨fun a v ha => writesAs_of_wf (addr_within_of_within ha) rfl, fun s a v hmode => ?_,
    fun s a v hmode => ⟨withHighBits s.romBank v, withHighBits_toNat s.romBank v, ?_⟩⟩
  · simp [exec_wrMbc1Bankhi, hmode, mbc1RamOffset_eq]
  · simp [exec_wrMbc1Bankhi, hmode, setMbc1RomBank_eq]

/-- Settles O28: the enable write sets the gate where a RAM bank is declared. -/
theorem mbc1RamEnableWrite : Obligations.Mbc1RamEnableWrite :=
  ⟨fun _ _ ha => writesAs_of_wf (addr_within_of_within ha) rfl,
    fun s a v => (exec_wrMbc1Ramen a v s).trans (congrArg Host.Outcome.next (mbc1RamEnable_eq v s))⟩

/-- Settles O31: the byte's bit 0 is the mode where exactly three RAM banks are declared. -/
theorem mbc1ModeWrite : Obligations.Mbc1ModeWrite := by
  refine ⟨fun a v ha => writesAs_of_wf (addr_within_of_within ha) rfl, fun s a v => ?_⟩
  rw [exec_wrMbc1Mode, modeTest_eq]
  split <;> rfl

end Sys2Proof.Machine
end

section
namespace Sys2Proof.Machine

/-! # The statements of spec/43_mbc2.md -/

/-- The MBC2 column of the write table is the NONE column (R221). -/
theorem decodeWrite_mbc2 (a : Addr) (v : Byte) : decodeWrite .mbc2 a v = decodeWrite .none a v := rfl

/-- Only MBC1 and MBC3 have controller writes (R52). -/
theorem RegisterUpdate.kind_eq {s t : State} {a : Addr} {v : Byte} (h : RegisterUpdate s a v t) :
    s.cfg.kind = .mbc1 ∨ s.cfg.kind = .mbc3 := by
  cases h with
  | mbc1Gate hk | mbc1RomLow hk | mbc1RomHigh hk | mbc1RamBank hk | mbc1Mode hk | echoMbc1 hk => exact .inl hk
  | mbc3Gate hk | mbc3RomBank hk | mbc3RtcSelect hk | mbc3RamBank hk | mbc3Rtc _ hk | echoMbc3 hk => exact .inr hk

/-- A step of a kind without controller writes changes no bank-controller register (R39, R223). -/
theorem step_sameRegisters {s t : State} (h1 : s.cfg.kind ≠ .mbc1) (h3 : s.cfg.kind ≠ .mbc3)
    (h : step s = .next t) : SameRegisters s t := by
  rcases step_update h with ⟨-, rfl⟩ | ⟨r, rest, -, hp | ⟨a, v, -, hu⟩⟩
  · exact PlainUpdate.same.sameRegisters
  · exact { hp.sameRegisters with }
  · exact absurd hu.kind_eq (not_or.2 ⟨h1, h3⟩)

/-- In a state of the invariant the closed gate of MBC2 answers every cartridge-RAM read (R222). -/
theorem exec_rdXram_mbc2 {s : State} (hs : s.Inv) (hk : s.cfg.kind = .mbc2) (a : Addr) :
    exec (.rdXram a) s = .next (s.respond 0xFF) := by
  obtain ⟨-, -, hgate⟩ := hs.fixedKinds (.inr hk)
  rw [exec_rdXram_gated (.inl (by simp [hk])), deliver_xramRead (by simp [hk]), if_pos hgate]

/-- Settles O33: the write columns agree, the invariant keeps the gate closed, and no step writes a register. -/
theorem mbc2StubBehaviour : Obligations.Mbc2StubBehaviour := by
  refine ⟨fun a v => ?_, fun s a hs hk ha => ⟨?_, exec_rdXram_mbc2 hs hk a⟩, fun s t hk h => ?_⟩
  · rw [decode_write, decode_write, decodeWrite_mbc2]
  · exact readsAs_of_wf (addr_within_of_within ha) rfl
  · obtain ⟨hgate, -, -, hrom, hram, -⟩ := step_sameRegisters (by simp [hk]) (by simp [hk]) h
    exact ⟨hgate, hram, hrom⟩

end Sys2Proof.Machine
end

section
open Sys2Proof.Claims

namespace Sys2Proof.Machine

/-! # The statements of spec/44_mbc3.md

## The accesses in RTC mode -/

theorem rtcRead_eq_ok {s : State} {v : Byte} :
    rtcRead s = .ok v ↔ ∃ i, rtcIndex s.cfg.rtcIndexMap s.rtcSelect = some i ∧ v = s.rtc.get i := by
  cases h : rtcIndex s.cfg.rtcIndexMap s.rtcSelect <;> simp [rtcRead, h, eq_comm]

/-- On the RTC path RD_XRAM is the RTC read, which no gate guards (R240). -/
theorem exec_rdXram_rtc {s : State} (hk : s.cfg.kind = .mbc3) (hfile : s.cfg.rtcReadPath = .rtcFile)
    (hmode : s.ramBankIndex = -1) (a : Addr) : exec (.rdXram a) s = deliver s (rtcRead s) := by
  rw [exec_rdXram]
  exact if_pos ⟨hk, hfile, hmode⟩

/-- Settles O24: with the RTC path taken the index decides between the byte and the fault; off it the read is that of
cartridge RAM. -/
theorem rtcModeReadFollowsTheReadPath : Obligations.RtcModeReadFollowsTheReadPath := by
  refine ⟨fun s a i _ hk hfile hmode hindex => ?_, fun s a _ hk hfile hmode hnone => ?_, fun s a _ hk hpath => ?_⟩
  · exact (exec_rdXram_rtc hk hfile hmode a).trans (deliver_eq_next.2 ⟨_, rtcRead_eq_ok.2 ⟨i, hindex, rfl⟩, rfl⟩)
  · exact (exec_rdXram_rtc hk hfile hmode a).trans (deliver_eq_fault.2 (rtcRead_eq_error.2 ⟨hnone, rfl⟩))
  · exact (exec_rdXram_gated (.inr hpath) a).trans (deliver_xramRead (by simp [hk]) a)

/-- In RTC mode WR_MBC3_XRAM is the RTC write, which no gate guards (R235, R238). -/
theorem exec_wrMbc3Xram_rtc {s : State} (hmode : s.ramBankIndex = -1) (a : Addr) (v : Byte) :
    exec (.wrMbc3Xram a v) s = rtcWrite v s := by
  rw [exec_wrMbc3Xram]
  exact if_pos hmode

/-- Settles O37: the index decides between the write of its byte and the fault, and the map's entries are its
values. -/
theorem mbc3RtcWrite : Obligations.Mbc3RtcWrite := by
  refine ⟨fun s a v i _ hmode hindex => ?_, fun s a v _ hmode hnone => ?_, fun m => ⟨rfl, rfl, rfl, rfl, rfl⟩⟩
  · refine ⟨s.rtc.set v i, ?_, ?_, fun j hj => ?_⟩
    · exact (exec_wrMbc3Xram_rtc hmode a v).trans (rtcWrite_eq_next.2 ⟨i, hindex, rfl⟩)
    · rw [RtcFile.get_set, if_pos rfl]
    · rw [RtcFile.get_set, if_neg hj]
  · exact (exec_wrMbc3Xram_rtc hmode a v).trans (rtcWrite_eq_fault.2 ⟨hnone, rfl⟩)

/-! ## The register writes -/

/-- Settles O36: the operation asks for an RTC select first, then for a RAM bank, and in each case answers a next state. -/
theorem mbc3SelectWrite : Obligations.Mbc3SelectWrite := by
  refine ⟨fun a v ha => writesAs_of_wf (addr_within_of_within ha) rfl, fun s a v => ?_⟩
  simp only [exec_wrMbc3RambRtc, and_assoc]
  split
  · rfl
  · split <;> rfl

/-- Settles O34: the enable write sets `rtc_enabled` always, and the gate where a RAM bank is declared. -/
theorem mbc3EnableWrite : Obligations.Mbc3EnableWrite :=
  ⟨fun _ _ ha => writesAs_of_wf (addr_within_of_within ha) rfl,
    fun s a v => (exec_wrMbc3Enable a v s).trans (congrArg Host.Outcome.next (mbc3Enable_eq v s))⟩

/-- Settles O35: the bank mapped is the byte's low seven bits, floored at 1. -/
theorem mbc3RomBankWrite : Obligations.Mbc3RomBankWrite := by
  refine ⟨fun a v ha => writesAs_of_wf (addr_within_of_within ha) rfl, fun s a v => ?_⟩
  rw [exec_wrMbc3Romb, mbc3RomBank_eq, romPage]

end Sys2Proof.Machine
end

section
namespace Sys2Proof.Machine

/-! # The statements of spec/45_persistence.md

## SAVE and LOAD, branch by branch -/

/-- A block without a battery saves nothing (R262). -/
theorem exec_saveMbc_noBattery {s : State} (h : s.cfg.hasBattery = false) :
    exec .saveMbc s = .next (s.report .noPersistence) := by
  rw [exec_saveMbc]
  exact if_neg (by simp [h])

/-- With a battery the dump goes to the sink; the gate is not asked (R262). -/
theorem exec_saveMbc_battery {s : State} (hk : s.cfg.kind ≠ .none) (h : s.cfg.hasBattery = true) :
    exec .saveMbc s = .next { s with sink := s.sink ++ s.cartRam.dump s.cfg.cartRamSize } := by
  rw [exec_saveMbc, bufSize_cartRam hk]
  exact if_pos h

/-- A block without a battery loads nothing; the source is not asked (R263). -/
theorem exec_loadMbc_noBattery {s : State} (h : s.cfg.hasBattery = false) :
    exec .loadMbc s = .next (s.report .noPersistence) := by
  rw [exec_loadMbc]
  exact if_neg (by simp [h])

/-- An invalid source leaves the buffer as it is (R263). -/
theorem exec_loadMbc_invalid {s : State} (h : s.cfg.hasBattery = true) (hv : s.source.valid = false) :
    exec .loadMbc s = .next (s.report .prematureEnd) := by
  rw [exec_loadMbc, if_pos h]
  exact if_neg (by simp [hv])

/-- A valid source fills the whole buffer, and only a short one is reported (R263). -/
theorem exec_loadMbc_valid {s : State} (hk : s.cfg.kind ≠ .none) (h : s.cfg.hasBattery = true)
    (hv : s.source.valid = true) :
    exec .loadMbc s = .next { s with
      cartRam := Memory.fromBytes 0 (s.source.bytes.take s.cfg.cartRamSize)
      errors := s.errors ++ if s.source.bytes.length < s.cfg.cartRamSize then [.dataIntegrity] else [] } := by
  rw [exec_loadMbc, if_pos h, if_pos hv, fillCartRam, bufSize_cartRam hk]
  split
  · rfl
  · rw [List.append_nil]

/-! ## The bytes of a dump and of a filled buffer -/

theorem Memory.dump_getElem? (m : Memory) {size i : Nat} (h : i < size) : (m.dump size)[i]? = some (m.read i) := by
  simp [Memory.dump, h]

/-- Below the number of bytes taken a filled buffer holds the source's byte, or zero behind the source's end (R263). -/
theorem Memory.read_fromBytes_take (bytes : List Byte) {size i : Nat} (h : i < size) :
    (Memory.fromBytes 0 (bytes.take size)).read i = bytes.getD i 0x00 := by
  rw [Memory.read_fromBytes, if_pos (Nat.zero_le i), Nat.sub_zero, List.getD_eq_getElem?_getD,
    List.getElem?_take_of_lt h, ← List.getD_eq_getElem?_getD, Memory.unlisted]

/-- A LOAD of a whole dump of `m` under the same configuration leaves `m` in cartridge RAM and reports nothing: the
dump is not short, nothing of it is cut off, and `m` is the only canonical buffer with those bytes (R268). -/
theorem exec_loadMbc_dump {u : State} {m : Memory} (hk : u.cfg.kind ≠ .none) (h : u.cfg.hasBattery = true)
    (hm : m.wf = true) (hf : m.fits u.cfg.cartRamSize = true) (hs : u.source = ⟨true, m.dump u.cfg.cartRamSize⟩) :
    exec .loadMbc u = .next { u with cartRam := m } := by
  have hlen : u.source.bytes.length = u.cfg.cartRamSize := by rw [hs, Memory.dump_length]
  have hfill : Memory.fromBytes 0 (u.source.bytes.take u.cfg.cartRamSize) = m := by
    rw [List.take_of_length_le hlen.le, hs, Memory.fromBytes_dump hm hf]
  rw [exec_loadMbc_valid hk h (by rw [hs]), hfill, if_neg hlen.not_lt, List.append_nil]

/-! ## The obligations -/

/-- Settles O40: the dump is that of cartridge RAM, `CART_RAM_SIZE` bytes long. -/
theorem saveDumpsCartRam : Obligations.SaveDumpsCartRam := by
  refine ⟨fun k hk => decodeOfEncode k .saveMbc (decide_eq_true hk), fun s hk hbat => ?_,
    fun s hbat => exec_saveMbc_noBattery hbat⟩
  exact ⟨s.cartRam.dump s.cfg.cartRamSize, Memory.dump_length _ _, fun i hi => Memory.dump_getElem? _ hi,
    exec_saveMbc_battery hk hbat⟩

/-- Settles O41: one clause for each branch of LOAD_MBC; the filled buffer is the source cut at `CART_RAM_SIZE`. -/
theorem loadFillsCartRam : Obligations.LoadFillsCartRam := by
  refine ⟨fun k hk => decodeOfEncode k .loadMbc (decide_eq_true hk), fun s hbat => exec_loadMbc_noBattery hbat,
    fun s hbat hinvalid => exec_loadMbc_invalid hbat hinvalid, fun s hk hbat hvalid => ?_⟩
  exact ⟨Memory.fromBytes 0 (s.source.bytes.take s.cfg.cartRamSize), fun i hi => Memory.read_fromBytes_take _ hi,
    exec_loadMbc_valid hk hbat hvalid⟩

/-- Settles O42: the dump of SAVE, loaded under the configuration of the SAVE. -/
theorem saveLoadRoundTrip : Obligations.SaveLoadRoundTrip := by
  refine ⟨fun s hk hbat hbuf => ?_, fun s hbat => ⟨exec_saveMbc_noBattery hbat, exec_loadMbc_noBattery hbat⟩⟩
  obtain ⟨hwf, hfits⟩ := hbuf
  rw [bufSize_cartRam hk] at hfits
  refine ⟨s.cartRam.dump s.cfg.cartRamSize, exec_saveMbc_battery hk hbat, fun u hcfg hsource => ?_⟩
  rw [← hcfg] at hk hbat hfits hsource
  exact exec_loadMbc_dump hk hbat hwf hfits hsource

/-- Settles O39: neither operation asks for the battery, the sink or the source. -/
theorem baseSaveAndLoadReportNoPersistence : Obligations.BaseSaveAndLoadReportNoPersistence :=
  ⟨decodeOfEncode .none .saveBase rfl, decodeOfEncode .none .loadBase rfl,
    fun s => ⟨exec_saveBase s, exec_loadBase s⟩⟩

end Sys2Proof.Machine
end

section
namespace Sys2Proof.Machine

/-! # The statements of spec/60_exceptions.md

## What an operation reports -/

/-- The diagnostics that an operation with this OP field may add: none, or one that is not UNSUPPORTED, NO_PERSISTENCE
of a SAVE or any of a LOAD (R280, R283, R290). -/
def ReportsAtMostOne (op : BitVec 2) (s t : State) : Prop :=
  t.errors = s.errors ∨
  ∃ e, t.errors = s.errors ++ [e] ∧ e ≠ .unsupported ∧ ((op = 0b10 ∧ e = .noPersistence) ∨ op = 0b11)

/-- NO_PERSISTENCE is the one report of a SAVE. -/
theorem reportsAtMostOne_save (s : State) : ReportsAtMostOne 0b10 s (s.report .noPersistence) :=
  .inr ⟨_, rfl, by decide, .inl ⟨rfl, rfl⟩⟩

/-- A LOAD may report any diagnostic but UNSUPPORTED, whatever it filled before. -/
theorem reportsAtMostOne_load {s t : State} {e : ErrorKind} (he : e ≠ .unsupported) (ht : t.errors = s.errors) :
    ReportsAtMostOne 0b11 s (t.report e) :=
  .inr ⟨e, by rw [State.report_errors, ht], he, .inr rfl⟩

theorem Responded.errors {s t : State} (h : Responded s t) : t.errors = s.errors := by
  obtain ⟨v, rfl⟩ := h
  rfl

theorem Stored.errors {s t : State} {b : Buf} {i : Nat} {v : Byte} (h : Stored s t b i v) : t.errors = s.errors := by
  obtain ⟨-, rfl⟩ := h
  exact State.putBuffer_errors ..

theorem GatedStored.errors {s t : State} {a : Addr} {v : Byte} (h : GatedStored s t a v) : t.errors = s.errors := by
  rcases h with ⟨-, rfl⟩ | ⟨-, hs⟩
  · rfl
  · exact hs.errors

/-- No bus access reports, and each branch of SAVE and LOAD reports at most once. -/
theorem Effect.reportsAtMostOne {i : Instr} {s t : State} (h : Effect i s t) :
    ReportsAtMostOne (opField (encode i)) s t := by
  cases i with
  | rdRom0 | rdRomx | rdVram | rdXram | rdWram0 | rdWramx | rdEcho | rdOam => exact .inl (Responded.errors h)
  | rdXramNone | rdUnusable | rdIo | wrRomNop | wrXramNop | wrUnusable | wrIo | wrMbc1Romlo | wrMbc3Romb =>
    cases h
    exact .inl rfl
  | wrVram | wrWram0 | wrWramx | wrOam => exact .inl (Stored.errors h)
  | wrMbc1Xram => exact .inl (GatedStored.errors h)
  | wrMbc1Ramen a v =>
    cases h
    exact .inl (mbc1RamEnable_errors s v)
  | wrMbc3Enable a v =>
    cases h
    exact .inl (mbc3Enable_errors s v)
  | wrEcho a v =>
    rcases h with rfl | ⟨-, ⟨-, rfl⟩ | ⟨-, rfl⟩⟩
    · exact .inl rfl
    · exact .inl (mbc1RamEnable_errors s v)
    · exact .inl (mbc3Enable_errors s v)
  | wrMbc1Bankhi | wrMbc1Mode => rcases h with ⟨-, rfl⟩ | ⟨-, rfl⟩ <;> exact .inl rfl
  | wrMbc3RambRtc => rcases h with ⟨-, -, -, rfl⟩ | ⟨-, rfl⟩ | rfl <;> exact .inl rfl
  | wrMbc3Xram =>
    rcases h with ⟨-, i, rfl⟩ | ⟨-, hg⟩
    · exact .inl rfl
    · exact .inl hg.errors
  | saveBase =>
    cases h
    exact reportsAtMostOne_save s
  | saveMbc =>
    rcases h with rfl | rfl
    · exact .inl rfl
    · exact reportsAtMostOne_save s
  | loadBase =>
    cases h
    exact reportsAtMostOne_load (by decide) rfl
  | loadMbc =>
    rcases h with rfl | rfl | rfl | rfl
    · exact reportsAtMostOne_load (by decide) (fillCartRam_errors s)
    · exact .inl (fillCartRam_errors s)
    · exact reportsAtMostOne_load (by decide) rfl
    · exact reportsAtMostOne_load (by decide) rfl

/-! ## The obligations -/

/-- Settles O53: an idle step reports nothing, and the request's word is the word of the operation that ran. -/
theorem diagnosticsAreAppendedBySaveAndLoadOnly : Obligations.DiagnosticsAreAppendedBySaveAndLoadOnly := by
  intro s t h
  rcases step_effect h with ⟨-, rfl⟩ | ⟨r, rest, i, -, -, hq, hd, he⟩
  · exact .inl rfl
  · obtain ⟨-, hw⟩ := decode_sound hd
    rcases he.reportsAtMostOne with hsame | ⟨e, herrors, hne, hop⟩
    · exact .inl hsame
    · exact .inr ⟨e, herrors, hne, r, rest, hq, hw ▸ hop⟩

/-- Settles O12: the step's answer is the fault recorded, and the mark alone decides every later step. -/
theorem faultLeavesTheBlockStuck : Obligations.FaultLeavesTheBlockStuck := by
  intro s f h
  have hstuck : step { s with fault := some f } = .fault f := step_of_fault rfl
  exact ⟨congrArg s.recordStop h, hstuck, congrArg (State.recordStop { s with fault := some f }) hstuck⟩

end Sys2Proof.Machine
end

section
open Sys2Proof.Claims

namespace Sys2Proof.Machine

/-! # The statements of spec/70_reset_and_hazards.md

## The constraints of a construction -/

/-- The check of a construction of kind `k` decides the constraints of R317; a block of kind NONE has no cartridge RAM
to check. -/
theorem configOk_iff_constraints (k : Kind) (p : Params) (init : InitContents) :
    configOk ⟨p, k⟩ init = true ↔ constraints k p init := by
  have hwram : 0x1000 ≤ if p.enhanced then 0x8000 else 0x2000 := by split <;> decide
  have hvram : 0x2000 ≤ if p.enhanced then 0x4000 else 0x2000 := by split <;> decide
  have hcart : (k = .none ∨ init.cartRam.length = bufSize ⟨p, k⟩ .cartRam) ↔
      (k ≠ .none → init.cartRam.length = p.cartRamSize) := by
    rw [or_iff_not_imp_left]
    exact forall_congr' fun hk => by rw [bufSize_cartRam hk]
  rw [configOk_iff, bufSize_wram, bufSize_vram, bufSize_oam, constraints, hcart,
    ← Nat.le_sub_iff_add_le hwram, ← Nat.le_sub_iff_add_le hvram]

/-! ## The block a construction yields -/

/-- A construction that meets its constraints yields the built block, with the one report of MBC2 (R310, R313). -/
theorem construct_of_constraints {k : Kind} {p : Params} {init : InitContents} (h : constraints k p init) :
    construct (.known k) p init =
      .next { built ⟨p, k⟩ init with errors := if k = .mbc2 then [.unsupported] else [] } := by
  rw [construct_known, if_pos ((configOk_iff_constraints k p init).2 h)]
  split <;> rfl

/-- A construction that breaks a constraint is refused (R317). -/
theorem construct_of_not_constraints {k : Kind} {p : Params} {init : InitContents} (h : ¬ constraints k p init) :
    construct (.known k) p init = .refused .badConfig := by
  rw [construct_known, if_neg (mt (configOk_iff_constraints k p init).1 h)]

/-- A buffer filled from launch contents holds each of their bytes at its index (R312). -/
theorem Memory.getElem?_eq_read_fromBytes (bytes : List Byte) (i : Nat) (h : i < bytes.length) :
    bytes[i]? = some ((Memory.fromBytes 0 bytes).read i) := by
  rw [Memory.read_fromBytes, if_pos (Nat.zero_le i), Nat.sub_zero, List.getD_eq_getElem _ _ h,
    List.getElem?_eq_getElem h]

/-- Cartridge RAM is filled from its launch contents under every kind that has it (R51, R312). -/
theorem built_cartRam {c : Config} (h : c.kind ≠ .none) (init : InitContents) :
    (built c init).cartRam = Memory.fromBytes 0 init.cartRam :=
  if_neg h

/-- The RTC file of an MBC3 block is its launch contents (R51, R312). -/
theorem built_rtc {c : Config} (h : c.kind = .mbc3) (init : InitContents) : (built c init).rtc = init.rtc :=
  if_pos h

/-! ## The obligations -/

/-- Settles O43: the registers stand in the built block, and each buffer is filled from its launch contents. -/
theorem constructionValues : Obligations.ConstructionValues := by
  intro k p init h
  refine ⟨_, construct_of_constraints h, rfl, rfl, rfl, rfl, fun _ => ⟨rfl, rfl⟩, fun _ => ⟨rfl, rfl⟩,
    fun _ => ⟨rfl, rfl, rfl⟩, rfl, rfl, rfl, Memory.getElem?_eq_read_fromBytes init.vram,
    Memory.getElem?_eq_read_fromBytes init.wram, Memory.getElem?_eq_read_fromBytes init.oam, fun hk => ?_,
    fun hk => built_rtc hk init⟩
  simp only [built_cartRam (c := ⟨p, k⟩) hk init]
  exact Memory.getElem?_eq_read_fromBytes init.cartRam

/-- Settles O44: another kind is refused by its name alone, and of one of the four kinds a construction whose
constraints hold yields a block, so it is not refused. -/
theorem constructionRefusals : Obligations.ConstructionRefusals := by
  refine ⟨fun name p init => rfl, fun k p init => ⟨fun href hok => ?_, construct_of_not_constraints⟩⟩
  rw [construct_of_constraints hok] at href
  cases href

end Sys2Proof.Machine
end

section
namespace Sys2Proof.Machine

/-! # The state after construction

`State.reset` is the block that construction yields from zero contents, so what holds of every constructed block holds
of it. -/

/-- Launch contents of the sizes that a configuration asks for, every byte the one that a buffer does not list. -/
def zeroContents (c : Config) : InitContents where
  vram := List.replicate (bufSize c .vram) Memory.unlisted
  wram := List.replicate (bufSize c .wram) Memory.unlisted
  oam := List.replicate (bufSize c .oam) Memory.unlisted
  cartRam := List.replicate (bufSize c .cartRam) Memory.unlisted
  rtc := ⟨0, 0, 0, 0⟩

/-- Zero contents have the lengths of R317, so that a construction from them can break only a bank offset's rule. -/
theorem configOk_zeroContents {c : Config}
    (hwram : c.wramBankOffsetInit % 0x1000 = 0 ∧ c.wramBankOffsetInit + 0x1000 ≤ bufSize c .wram)
    (hvram : c.vramBankOffsetInit % 0x2000 = 0 ∧ c.vramBankOffsetInit + 0x2000 ≤ bufSize c .vram) :
    configOk c (zeroContents c) = true :=
  (configOk_iff c _).2 ⟨hwram, hvram, List.length_replicate, List.length_replicate, List.length_replicate,
    .inr List.length_replicate⟩

/-- Of the standard configuration and zero contents, which leave every buffer unlisted, the built block is the reset
state. -/
theorem built_standard_zeroContents : built Config.standard (zeroContents Config.standard) = State.reset := by
  simp only [built, zeroContents, Memory.fromBytes_replicate, ite_self]
  rfl

/-- The construction of kind MBC1 with the standard parameters and zero contents yields the reset state. -/
theorem construct_standard_zeroContents :
    construct (.known .mbc1) Params.standard (zeroContents Config.standard) = .next State.reset := by
  have hok : configOk Config.standard (zeroContents Config.standard) = true :=
    configOk_zeroContents (by decide) (by decide)
  rw [construct_known, ← built_standard_zeroContents]
  exact if_pos hok

/-- Settles O46: the launch contents are zero contents. -/
theorem resetIsAConstruction : Obligations.ResetIsAConstruction :=
  ⟨_, construct_standard_zeroContents⟩

/-- Settles O47: every block that construction yields meets the invariant, and the reset state is one. -/
theorem invariantAtReset : Obligations.InvariantAtReset :=
  constructionEstablishesInvariant _ _ _ _ construct_standard_zeroContents

end Sys2Proof.Machine
end
